-- ==== Sys2Proof/Word.lean ====
section
/-! DEFINITION. The words and register widths of ADCFILT (spec/00_scope.md R4, R6, spec/10_state.md R10).

Every quantity the spec gives a width is a bit vector of that width; bit 0 is the least significant (R6).
Arithmetic between them is done on `Nat` (R7: nothing in the block wraps) and put back at the register's width. -/

namespace Sys2Proof

/-- A raw or filtered value and one buffer slot: `SAMPLE_W` = 12 bits (R4, R12, R13, R16). -/
abbrev Sample := BitVec 12

/-- A calibration bound or a window end: `BOUND_W` = 13 bits, since 4096 is a legal bound (R4, R14, R15). -/
abbrev Bound := BitVec 13

/-- The hysteresis width register: 10 bits (R15). -/
abbrev HystWidth := BitVec 10

/-- A physical channel identifier: `PID_W` = 8 bits (R4, R11). -/
abbrev Pid := BitVec 8

/-- A word of the S-port: 32 bits (R45). -/
abbrev SWord := BitVec 32

/-- A word of the C-, R-, P- or L-port: 64 bits (R45). -/
abbrev CWord := BitVec 64

/-- A logical channel index below `N_MAX` = 6 (R4); a configuration uses the indices below its `N`. -/
abbrev Chan := Fin 6

/-- Field `v` of a 64-bit word, its bit 0 at bit `lo` of the word (R6). -/
def place64 {w : Nat} (v : BitVec w) (lo : Nat) : BitVec 64 := v.setWidth 64 <<< lo

/-- Field `v` of a 32-bit word, its bit 0 at bit `lo` of the word (R6). -/
def place32 {w : Nat} (v : BitVec w) (lo : Nat) : BitVec 32 := v.setWidth 32 <<< lo

end Sys2Proof
end

