-- ==== Sys2Proof/Config.lean ====
section
/-! DEFINITION. The implementation parameters of ADCFILT (spec/00_scope.md R4) and the model's free values.

A configuration is plain data, constant from hardware reset onward (R4). `State` carries it, so that one model
covers every configuration; no step writes it. Which configurations have a meaning is `Config.wf` (R5). -/

namespace Sys2Proof

/-- The parameters of one logical channel (R4, R11): its physical identifier and its default calibration. -/
structure ChannelConfig where
  /-- `PHYS_ID[c]` -/
  physId : Pid
  /-- `CAL_MIN_DEF[c]` -/
  calMinDef : Bound
  /-- `CAL_MAX_DEF[c]` -/
  calMaxDef : Bound
  /-- `WIDTH_DEF[c]` -/
  widthDef : HystWidth
  deriving DecidableEq, Repr

/-- The parameters of the block (R4). The widths `SAMPLE_W`, `BOUND_W`, `PID_W`, `CNT_W` are types of
`Word.lean`; `N_MAX` = 6, `K_MAX` = 100 and `WIDTH_MAX` = 1000 stand in `Config.wf` and in the validations. -/
structure Config where
  /-- The channel table; its length is `N`, entry `c` belongs to logical channel `c`. -/
  channels : List ChannelConfig
  /-- `K`, the capacity of every channel's circular buffer. -/
  k : Nat
  /-- `ENG_LOCK_WAIT`: timing only, no rule depends on it (R4, R159). -/
  engLockWait : Nat
  /-- `WAIT_UNIT`, the unit of the `wait` operand: open and uninterpreted (92_eei_decisions.md D27, R113). -/
  waitUnit : Nat
  deriving DecidableEq, Repr

/-- `N`, the number of logical channels (R4). -/
def Config.n (cfg : Config) : Nat := cfg.channels.length

/-- FREE VALUE (log entry 6). What a Channel Record field or a buffer slot holds after the reset input was asserted:
the spec calls it unspecified (R26, R145). Arguments: the width, the number of the reset, the number of the item.
It has no body, so nothing can be proved about a value of it. -/
opaque Config.freeValue : (w : Nat) → (epoch : Nat) → (item : Nat) → BitVec w

end Sys2Proof
end

