-- ==== Sys2Proof/Syntax.lean ====
section
/-! DEFINITION. The operations of ADCFILT: one constructor per row of spec/opcode_table.json
(spec/30_encoding.md R54 to R57, R62), and the words that carry them on the two input ports (R45). -/

namespace Sys2Proof

/-- The status of a drain answer, the field `st` of a DRH word (R48). -/
inductive DrainStatus where
  /-- 0: the drain succeeded, `n` samples follow -/
  | ok
  /-- 1: TIMEOUT -/
  | timeout
  /-- 2: ERROR -/
  | error
  /-- 3: reserved, treated as ERROR (R48, R69) -/
  | reserved3
  deriving DecidableEq, Repr

/-- The operations, each with exactly the operands it uses (R53, R54). -/
inductive Instr where
  /-- S-port: raise the data-ready notification (R65) -/
  | ntf
  /-- S-port: one sample (R70) -/
  | smp (pid : Pid) (raw : Sample)
  /-- S-port: the header of a drain answer (R67) -/
  | drh (st : DrainStatus) (n : BitVec 8)
  /-- C-port 0x1 (R100) -/
  | getRaw (ch : BitVec 3) (wait : BitVec 16)
  /-- C-port 0x2 (R101) -/
  | getFilt (ch : BitVec 3) (wait : BitVec 16)
  /-- C-port 0x3 (R102) -/
  | getCal (ch : BitVec 3) (wait : BitVec 16)
  /-- C-port 0x4 (R103) -/
  | getWidth (ch : BitVec 3) (wait : BitVec 16)
  /-- C-port 0x5 (R106) -/
  | setCal (ch : BitVec 3) (wait : BitVec 16) (min max : Bound)
  /-- C-port 0x6 (R108); the operand is 13 bits wide, so values that validation refuses can be written (R53) -/
  | setWidth (ch : BitVec 3) (wait : BitVec 16) (width : BitVec 13)
  /-- C-port 0x7 (R112) -/
  | getStat (sel : BitVec 3)
  /-- C-port 0x8 (R115) -/
  | start
  /-- C-port 0x9 (R119) -/
  | stop
  /-- the engine's internal step; no word encodes it (R62, R66) -/
  | wake
  /-- S-port kind 3, reserved (R57) -/
  | sReservedKind3
  /-- C-port 0x0, reserved (R56) -/
  | cReserved0
  /-- C-port 0xA, reserved (R56) -/
  | cReservedA
  /-- C-port 0xB, reserved (R56) -/
  | cReservedB
  /-- C-port 0xC, reserved (R56) -/
  | cReservedC
  /-- C-port 0xD, reserved (R56) -/
  | cReservedD
  /-- C-port 0xE, reserved (R56) -/
  | cReservedE
  /-- C-port 0xF, reserved (R56) -/
  | cReservedF
  deriving DecidableEq, Repr

/-- A word presented on one of the two ports that carry operations (R45). -/
inductive PortWord where
  /-- a 32-bit word of the S-port -/
  | sample (w : SWord)
  /-- a 64-bit word of the C-port -/
  | command (w : CWord)
  deriving DecidableEq, Repr

end Sys2Proof
end

