-- ==== Sys2Proof/WellFormed.lean ====
section
/-! DEFINITION. Which configurations have a meaning (spec/00_scope.md R4, R5) and which operations a port word can
carry (spec/30_encoding.md R54, R62). -/

namespace Sys2Proof

/-- The ranges R4 gives the parameters of one channel: `CAL_MIN_DEF < CAL_MAX_DEF <= 4096`,
`1 <= WIDTH_DEF <= 1000`. (The range of `PHYS_ID` is its type.) -/
def ChannelConfig.wf (c : ChannelConfig) : Bool :=
  decide (c.calMinDef.toNat < c.calMaxDef.toNat) && decide (c.calMaxDef.toNat ≤ 4096) &&
    decide (1 ≤ c.widthDef.toNat) && decide (c.widthDef.toNat ≤ 1000)

/-- R5: every range of R4 holds (`2 <= N <= 6`, `1 <= K <= 100`) and the physical identifiers are pairwise
distinct. -/
def Config.wf (cfg : Config) : Bool :=
  decide (2 ≤ cfg.n) && decide (cfg.n ≤ 6) && decide (1 ≤ cfg.k) && decide (cfg.k ≤ 100) &&
    decide ((cfg.channels.map ChannelConfig.physId).Nodup) && cfg.channels.all ChannelConfig.wf

/-- An operation some port word carries: every one but WAKE, the engine's internal step (R62). The operands need no
check: each is exactly as wide as its field, so every operand value can be written down (R53). -/
def Instr.wf (i : Instr) : Bool := decide (i ≠ .wake)

end Sys2Proof
end

