-- ==== Sys2Proof/Decode.lean ====
section
/-! DEFINITION. Decoding the words of the S-port and the C-port, and after it the encoder (spec/30_encoding.md R46 to
R58). The decoder is total: the rows of the operation table, the reserved ones among them, partition both word spaces
(R55), so every 32-bit S-port word and every 64-bit C-port word is some operation, the reserved ones under their own
names. Reserved bits and unused fields are ignored (R58). -/

namespace Sys2Proof

/-- The drain status of the field `st` (R48). -/
def DrainStatus.ofBits (st : BitVec 2) : DrainStatus :=
  match st with
  | 0#2 => .ok
  | 1#2 => .timeout
  | 2#2 => .error
  | _ => .reserved3

/-- The field `st` of a drain status (R48). -/
def DrainStatus.toBits : DrainStatus → BitVec 2
  | .ok => 0#2
  | .timeout => 1#2
  | .error => 2#2
  | .reserved3 => 3#2

/-- An S-port word, by its kind `w[31:30]` (R46, R47, R48, R57). -/
def decodeSample (w : SWord) : Instr :=
  match w.extractLsb' 30 2 with
  | 0#2 => .ntf
  | 1#2 => .smp (w.extractLsb' 20 8) (w.extractLsb' 0 12)
  | 2#2 => .drh (DrainStatus.ofBits (w.extractLsb' 28 2)) (w.extractLsb' 0 8)
  | _ => .sReservedKind3

/-- `op = w[63:60]` of a C-port word (R50). -/
def opField (w : CWord) : BitVec 4 := w.extractLsb' 60 4

/-- `ch = w[59:57]` of a C-port word (R50). -/
def chField (w : CWord) : BitVec 3 := w.extractLsb' 57 3

/-- `wait = w[47:32]` of a C-port word (R50). -/
def waitField (w : CWord) : BitVec 16 := w.extractLsb' 32 16

/-- `A = w[12:0]` of a C-port word (R50). -/
def aField (w : CWord) : BitVec 13 := w.extractLsb' 0 13

/-- `B = w[28:16]` of a C-port word (R50). -/
def bField (w : CWord) : BitVec 13 := w.extractLsb' 16 13

/-- A C-port word, by its opcode (R50, R54, R56, R112 for `sel = A[2:0]`). -/
def decodeCommand (w : CWord) : Instr :=
  match opField w with
  | 0x0#4 => .cReserved0
  | 0x1#4 => .getRaw (chField w) (waitField w)
  | 0x2#4 => .getFilt (chField w) (waitField w)
  | 0x3#4 => .getCal (chField w) (waitField w)
  | 0x4#4 => .getWidth (chField w) (waitField w)
  | 0x5#4 => .setCal (chField w) (waitField w) (aField w) (bField w)
  | 0x6#4 => .setWidth (chField w) (waitField w) (aField w)
  | 0x7#4 => .getStat (w.extractLsb' 0 3)
  | 0x8#4 => .start
  | 0x9#4 => .stop
  | 0xA#4 => .cReservedA
  | 0xB#4 => .cReservedB
  | 0xC#4 => .cReservedC
  | 0xD#4 => .cReservedD
  | 0xE#4 => .cReservedE
  | _ => .cReservedF

/-- The operation a presented word carries; a word's meaning depends on its own bits only (R64). -/
def decode : PortWord → Instr
  | .sample w => decodeSample w
  | .command w => decodeCommand w

/-- Bits numbered as the operation table numbers them: 32 bits are an S-port word, 64 bits a C-port word, no bits the
engine's internal step WAKE, whose row has an empty pattern (R55, R62); no row has another width. -/
def decodeTableWord (nbits w : Nat) : Option Instr :=
  if nbits = 32 then some (decode (.sample (BitVec.ofNat 32 w)))
  else if nbits = 64 then some (decode (.command (BitVec.ofNat 64 w)))
  else if nbits = 0 then some .wake
  else none

/-! ## The encoder -/

/-- A C-port word from its fields, reserved bits 0 (R50). -/
def commandWord (op : BitVec 4) (ch : BitVec 3) (wait : BitVec 16) (b a : BitVec 13) : CWord :=
  place64 op 60 ||| place64 ch 57 ||| place64 wait 32 ||| place64 b 16 ||| place64 a 0

/-- The word of an operation, reserved bits and unused fields 0 (R58); none for WAKE (R62). -/
def encode : Instr → Option PortWord
  | .ntf => some (.sample (place32 0#2 30))
  | .smp pid raw => some (.sample (place32 1#2 30 ||| place32 pid 20 ||| place32 raw 0))
  | .drh st n => some (.sample (place32 2#2 30 ||| place32 st.toBits 28 ||| place32 n 0))
  | .sReservedKind3 => some (.sample (place32 3#2 30))
  | .getRaw ch wait => some (.command (commandWord 0x1#4 ch wait 0 0))
  | .getFilt ch wait => some (.command (commandWord 0x2#4 ch wait 0 0))
  | .getCal ch wait => some (.command (commandWord 0x3#4 ch wait 0 0))
  | .getWidth ch wait => some (.command (commandWord 0x4#4 ch wait 0 0))
  | .setCal ch wait min max => some (.command (commandWord 0x5#4 ch wait max min))
  | .setWidth ch wait width => some (.command (commandWord 0x6#4 ch wait 0 width))
  | .getStat sel => some (.command (commandWord 0x7#4 0 0 0 (sel.setWidth 13)))
  | .start => some (.command (commandWord 0x8#4 0 0 0 0))
  | .stop => some (.command (commandWord 0x9#4 0 0 0 0))
  | .cReserved0 => some (.command (commandWord 0x0#4 0 0 0 0))
  | .cReservedA => some (.command (commandWord 0xA#4 0 0 0 0))
  | .cReservedB => some (.command (commandWord 0xB#4 0 0 0 0))
  | .cReservedC => some (.command (commandWord 0xC#4 0 0 0 0))
  | .cReservedD => some (.command (commandWord 0xD#4 0 0 0 0))
  | .cReservedE => some (.command (commandWord 0xE#4 0 0 0 0))
  | .cReservedF => some (.command (commandWord 0xF#4 0 0 0 0))
  | .wake => none

/-! ## The operation table -/

/-- One row of the operation table over the word of its port: a mask and a match (R54). -/
inductive TableRow where
  | sample (mask mtch : SWord)
  | command (mask mtch : CWord)
  deriving DecidableEq, Repr

/-- "A word `w` selects the row when `w & mask = match`" (R54). -/
def TableRow.selects : TableRow → PortWord → Bool
  | .sample mask mtch, .sample w => decide (w &&& mask = mtch)
  | .command mask mtch, .command w => decide (w &&& mask = mtch)
  | _, _ => false

/-- The row of spec/opcode_table.json that an operation stands for; WAKE has none with bits (R54, R55). -/
def Instr.row : Instr → Option TableRow
  | .ntf => some (.sample 0xC0000000 0x00000000)
  | .smp _ _ => some (.sample 0xC0000000 0x40000000)
  | .drh _ _ => some (.sample 0xC0000000 0x80000000)
  | .sReservedKind3 => some (.sample 0xC0000000 0xC0000000)
  | .getRaw _ _ => some (.command 0xF000000000000000 0x1000000000000000)
  | .getFilt _ _ => some (.command 0xF000000000000000 0x2000000000000000)
  | .getCal _ _ => some (.command 0xF000000000000000 0x3000000000000000)
  | .getWidth _ _ => some (.command 0xF000000000000000 0x4000000000000000)
  | .setCal _ _ _ _ => some (.command 0xF000000000000000 0x5000000000000000)
  | .setWidth _ _ _ => some (.command 0xF000000000000000 0x6000000000000000)
  | .getStat _ => some (.command 0xF000000000000000 0x7000000000000000)
  | .start => some (.command 0xF000000000000000 0x8000000000000000)
  | .stop => some (.command 0xF000000000000000 0x9000000000000000)
  | .cReserved0 => some (.command 0xF000000000000000 0x0000000000000000)
  | .cReservedA => some (.command 0xF000000000000000 0xA000000000000000)
  | .cReservedB => some (.command 0xF000000000000000 0xB000000000000000)
  | .cReservedC => some (.command 0xF000000000000000 0xC000000000000000)
  | .cReservedD => some (.command 0xF000000000000000 0xD000000000000000)
  | .cReservedE => some (.command 0xF000000000000000 0xE000000000000000)
  | .cReservedF => some (.command 0xF000000000000000 0xF000000000000000)
  | .wake => none

end Sys2Proof
end

