-- ==== Sys2Proof/Machine/State.lean ====
section
/-! DEFINITION. The state of ADCFILT as plain data (spec/10_state.md R10 to R29), the state after hardware reset (R26), and
the reasons a step can stop. -/

namespace Sys2Proof.Machine

/-- `REC[c]`, the Channel Record of one logical channel, without its buffer (R12 to R17); `BUF` is `State.mem`. -/
structure ChannelRecord where
  /-- `RAW`: the last latched raw value (R12) -/
  raw : Sample
  /-- `FILT`: the running average (R13) -/
  filt : Sample
  /-- `CAL_MIN` (R14) -/
  calMin : Bound
  /-- `CAL_MAX` (R14) -/
  calMax : Bound
  /-- `WMIN`: the lower end of the hysteresis window (R15) -/
  wmin : Bound
  /-- `WMAX`: the upper end of the hysteresis window (R15) -/
  wmax : Bound
  /-- `WIDTH`: the configured hysteresis width (R15) -/
  width : HystWidth
  /-- `CUR`: the slot the next sample overwrites (R16) -/
  cur : BitVec 7
  /-- `ACC`: the running sum of the slots (R17) -/
  acc : BitVec 19
  deriving DecidableEq, Repr

/-- The circular buffers of all channels, the block's one memory (spec/20_memory.md R30): pairs of a slot's key
and its value, keys strictly rising, no value 0, since an unlisted slot reads 0 (log entry 5). -/
abbrev Memory := List (Nat × Sample)

/-- `ENG`, the sequencing state of the Acquisition Engine (R19). -/
inductive Eng where
  /-- 0: the engine does not exist -/
  | stopped
  /-- 1: blocked until a notification -/
  | wait
  /-- 2: has asked the driver for a drain; `drain_req` is 1 -/
  | req
  /-- 3: `REMAIN` samples are still to come -/
  | burst
  deriving DecidableEq, Repr

/-- The result of a command (spec/60_exceptions.md R123). -/
inductive Status where
  | ok | invalid | busy | persistFail | startFail | notStarted
  deriving DecidableEq, Repr

/-- The inputs the environment supplies with an operation (spec/00_scope.md R9; spec/30_encoding.md R45). An operation
reads the ones its rule names and ignores the others. -/
structure Draws where
  /-- `grant`: the lock was obtained within the wait budget -/
  grant : Bool
  /-- `persist_ok`: the store reported the save as done -/
  persistOk : Bool
  /-- `hw_ok`: the primitives could be created and the hardware configured -/
  hwOk : Bool
  /-- the load-answer words on the L-port, one per channel (R52); those of channels `< N` are read -/
  load : Vector CWord 6
  deriving DecidableEq, Repr

/-- One thing the environment or the schedule lets happen: spec/20_memory.md R40 admits every order of them. -/
inductive Input where
  /-- a word is presented on the S-port or the C-port, with its draws -/
  | word (p : PortWord) (d : Draws)
  /-- the engine takes its internal step WAKE (spec/30_encoding.md R62) -/
  | engineStep
  /-- the reset input `rst` is asserted (spec/70_reset_and_hazards.md R145) -/
  | rst
  deriving DecidableEq, Repr

/-- What a step does: take the operation a word carries or WAKE, follow the reset input, or nothing is presented. -/
inductive Action where
  | run (i : Instr)
  | reset
  | idle
  deriving DecidableEq, Repr

/-- The whole machine (R10), with the parameters (`cfg`), the environment's inputs (`schedule`, `draws`) and
the words the block has put out (`rPort`, `pPort`), oldest first. -/
structure State where
  /-- the parameters, never written (spec/00_scope.md R4) -/
  cfg : Config
  /-- `REC[c]` for `c < N`; the record places from `N` up belong to no channel -/
  recs : Vector ChannelRecord 6
  /-- `BUF` of every channel -/
  mem : Memory
  /-- `CNT_READ`: drain cycles completed with status OK (R18) -/
  cntRead : BitVec 32
  /-- `CNT_INVALID`: samples whose identifier matched no channel (R18) -/
  cntInvalid : BitVec 32
  /-- `CNT_RDERR`: drain cycles that reported a read failure (R18) -/
  cntRderr : BitVec 32
  /-- `CNT_TIMEOUT`: drain cycles that reported a timeout (R18) -/
  cntTimeout : BitVec 32
  /-- `ENG` (R19) -/
  eng : Eng
  /-- `NOTIFY`, the pending notification (R20) -/
  notify : Bool
  /-- `REMAIN`, the samples still expected in the drain cycle (R21) -/
  remain : BitVec 8
  /-- `LOCK`, hidden; free (false) between operations (R22) -/
  lockHeld : Bool
  /-- what happens next, in order (log entry 1) -/
  schedule : List Input
  /-- the input levels that accompany the operation in progress (log entry 2) -/
  draws : Draws
  /-- the words placed on the R-port (spec/30_encoding.md R49) -/
  rPort : List CWord
  /-- the words placed on the P-port (spec/30_encoding.md R51) -/
  pPort : List CWord
  /-- how often `rst` was asserted; it selects fresh free values (log entry 6) -/
  epoch : Nat
  deriving DecidableEq, Repr

/-- The reasons the machine is stuck. -/
inductive Fault where
  /-- Raised by WAKE when `ENG` is not WAIT or `NOTIFY` is 0: "when it is not enabled it cannot be taken" (R66). Safe: no
  transition exists there, and the model makes none. -/
  | wakeNotEnabled
  deriving DecidableEq, Repr

/-- The reasons the model gives no meaning. -/
inductive Refusal where
  /-- An instruction without a meaning yet; no arm of `exec` says so any more. Safe. -/
  | notModelled (mnemonic : String)
  /-- Raised by `step` under a configuration that is not well-formed: "A model refuses an ill-formed configuration"
  (spec/00_scope.md R5). Safe. -/
  | illFormedConfig
  deriving DecidableEq, Repr

/-- The written defaults of the draws (spec/30_encoding.md R60): everything succeeds, nothing is stored. -/
def Draws.written : Draws :=
  { grant := true, persistOk := true, hwOk := true, load := Vector.replicate 6 0#64 }

/-- DESIGN CHOICE (log entry 4): what a Channel Record holds in `State.reset`, where R26 leaves it unspecified. -/
def ChannelRecord.reset : ChannelRecord :=
  { raw := 0, filt := 0, calMin := 0, calMax := 0, wmin := 0, wmax := 0, width := 0, cur := 0, acc := 0 }

/-- DESIGN CHOICE (log entry 3): the configuration of `State.reset` is the one of the spec's vectors
(95_test_vectors.md, `N = 2`, `PHYS_ID = [4, 7]`, `K = 10`, defaults 0, 4095, 40). Claims are over every state and
so over every configuration. -/
def vectorConfig : Config :=
  { channels := [⟨4, 0, 4095, 40⟩, ⟨7, 0, 4095, 40⟩], k := 10, engLockWait := 10, waitUnit := 1 }

/-- The machine right after hardware reset (R26, spec/70_reset_and_hazards.md R145), nothing presented yet. -/
def State.reset : State :=
  { cfg := vectorConfig
    recs := Vector.replicate 6 ChannelRecord.reset
    mem := []
    cntRead := 0
    cntInvalid := 0
    cntRderr := 0
    cntTimeout := 0
    eng := .stopped
    notify := false
    remain := 0
    lockHeld := false
    schedule := []
    draws := Draws.written
    rPort := []
    pPort := []
    epoch := 0 }

end Sys2Proof.Machine
end

