-- ==== Sys2Proof/Machine/Flags.lean ====
section
/-! DEFINITION. Codes, levels and counters: the status codes and the words the block puts out (spec/60_exceptions.md R123,
spec/30_encoding.md R49, R51, R63), the code of `ENG`, the output `drain_req`, and the saturating counters (R18). The
block has no condition flags (spec/10_state.md R23). -/

namespace Sys2Proof.Machine

/-- The 3-bit code of a status (R123); 6 and 7 are never produced. -/
def Status.code : Status → BitVec 3
  | .ok => 0
  | .invalid => 1
  | .busy => 2
  | .persistFail => 3
  | .startFail => 4
  | .notStarted => 5

/-- The 2-bit code of `ENG` (R19). -/
def Eng.code : Eng → BitVec 2
  | .stopped => 0
  | .wait => 1
  | .req => 2
  | .burst => 3

/-- The output level `drain_req`: 1 exactly while `ENG = REQ` (R45, R29). -/
def State.drainReq (s : State) : Bool := decide (s.eng = .req)

/-- The response word (R49): status in `[63:61]`, data in `[31:0]`, bits `[60:32]` zero. -/
def responseWord (st : Status) (data : BitVec 32) : CWord := place64 st.code 61 ||| place64 data 0

/-- The save-request word of channel `c` with record `r` (R51). -/
def saveWord (c : Chan) (r : ChannelRecord) : CWord :=
  place64 (BitVec.ofNat 3 c.val) 61 ||| place64 r.width 32 ||| place64 r.calMax 16 ||| place64 r.calMin 0

/-- The data of a GET_CAL answer (R63, R102): `CAL_MIN` in `[12:0]`, `CAL_MAX` in `[28:16]`. -/
def calData (r : ChannelRecord) : BitVec 32 := place32 r.calMax 16 ||| place32 r.calMin 0

/-- The data of a GET_STAT ENG answer (R63, R112): `ENG` in `[1:0]`, `NOTIFY` in `[2]`, `REMAIN` in `[15:8]`. -/
def engData (s : State) : BitVec 32 :=
  place32 s.remain 8 ||| place32 (BitVec.ofBool s.notify) 2 ||| place32 s.eng.code 0

/-- The increment of a diagnostic counter: `CNT <- min(CNT + 1, 2^32 - 1)`, it saturates and never wraps (R18). -/
def satInc (c : BitVec 32) : BitVec 32 := BitVec.ofNat 32 (min (c.toNat + 1) 4294967295)

end Sys2Proof.Machine
end

