-- ==== Sys2Proof/Machine/Ops.lean ====
section
/-! DEFINITION. The named operations over memory, records, lock and ports, hardware reset, and taking the next input. The
block has no trap entry and no trap return (spec/60_exceptions.md R134, R135): a failing command ends in
`State.respond` with a non-OK status, the spec's `raise` (spec/00_scope.md R8). -/

namespace Sys2Proof.Machine

/-! ## The buffer memory (spec/20_memory.md R30, R31) -/

/-- The key of slot `(c, i)`; `i` is below 128, the range of `CUR`, so slots of different channels never meet. -/
def slotKey (c : Chan) (i : Nat) : Nat := c.val * 128 + i

/-- `MemRead` at a key (R31); a slot that is not listed reads 0. -/
def Memory.read : Memory → Nat → Sample
  | [], _ => 0#12
  | (k, v) :: m, a => if k = a then v else Memory.read m a

/-- `MemWrite` at a key (R31); writing 0 removes the entry, so the form stays canonical. -/
def Memory.write : Memory → Nat → Sample → Memory
  | [], a, v => if v = 0#12 then [] else [(a, v)]
  | (k, w) :: m, a, v =>
    if a < k then (if v = 0#12 then (k, w) :: m else (a, v) :: (k, w) :: m)
    else if a = k then (if v = 0#12 then m else (a, v) :: m)
    else (k, w) :: Memory.write m a v

/-- The canonical form: keys strictly rising, no entry equal to what an unlisted slot reads as. -/
abbrev Memory.wf (m : Memory) : Prop := m.Pairwise (fun a b => a.1 < b.1) ∧ ∀ e ∈ m, e.2 ≠ 0#12

/-- Writes `f k` to every key `k` of a list, in order. -/
def Memory.fill (f : Nat → Sample) : List Nat → Memory → Memory
  | [], m => m
  | k :: ks, m => Memory.fill f ks (Memory.write m k (f k))

/-- The channels a configuration can have, in order. -/
def allChans : List Chan := [0, 1, 2, 3, 4, 5]

/-- The keys of every slot the configuration has: `(c, i)` with `c < N`, `i < K` (R30). -/
def slotKeys (cfg : Config) : List Nat :=
  allChans.flatMap fun c => if c.val < cfg.n then (List.range cfg.k).map (slotKey c) else []

/-- `SUM(c)` over `K = k` slots (spec/00_scope.md R8). The machine keeps it in `ACC`; the invariants say they agree. -/
def Memory.sum (m : Memory) (c : Chan) (k : Nat) : Nat :=
  ((List.range k).map fun i => (Memory.read m (slotKey c i)).toNat).sum

/-! ## Records, counters, lock, ports -/

/-- `REC[c]` (R8). -/
def State.record (s : State) (c : Chan) : ChannelRecord := s.recs[c]

/-- `REC[c] <- r` (R8). -/
def State.setRecord (s : State) (c : Chan) (r : ChannelRecord) : State := { s with recs := s.recs.set c r }

/-- One more drain cycle completed with status OK (R18). -/
def State.countRead (s : State) : State := { s with cntRead := satInc s.cntRead }

/-- One more unmatched sample (R18, R71). -/
def State.countInvalid (s : State) : State := { s with cntInvalid := satInc s.cntInvalid }

/-- One more drain cycle with a read failure (R18, R69). -/
def State.countRderr (s : State) : State := { s with cntRderr := satInc s.cntRderr }

/-- One more drain cycle with a timeout (R18, R69). -/
def State.countTimeout (s : State) : State := { s with cntTimeout := satInc s.cntTimeout }

/-- The work `f` under the exclusive lock: take it, work, release it, all in one transition (R22, R34). -/
def State.locked (s : State) (f : State → State) : State :=
  { f { s with lockHeld := true } with lockHeld := false }

/-- `respond(st, d)` (R8): the response word goes to the R-port. With a non-OK status it is the block's `raise`:
nothing is saved, no mode changes, control goes nowhere (R134). -/
def State.respond (s : State) (st : Status) (data : BitVec 32) : State :=
  { s with rPort := s.rPort ++ [responseWord st data] }

/-- `emit SAVE(c)` (R8, R51, R109): the record's values as they are now. -/
def State.emitSave (s : State) (c : Chan) : State :=
  { s with pPort := s.pPort ++ [saveWord c (s.record c)] }

/-! ## Hardware reset (spec/10_state.md R26, spec/70_reset_and_hazards.md R145) -/

/-- A Channel Record after the reset input: every field a free value (log entry 6). -/
def unspecifiedRecord (epoch : Nat) (c : Chan) : ChannelRecord :=
  { raw := Config.freeValue 12 epoch (c.val * 16)
    filt := Config.freeValue 12 epoch (c.val * 16 + 1)
    calMin := Config.freeValue 13 epoch (c.val * 16 + 2)
    calMax := Config.freeValue 13 epoch (c.val * 16 + 3)
    wmin := Config.freeValue 13 epoch (c.val * 16 + 4)
    wmax := Config.freeValue 13 epoch (c.val * 16 + 5)
    width := Config.freeValue 10 epoch (c.val * 16 + 6)
    cur := Config.freeValue 7 epoch (c.val * 16 + 7)
    acc := Config.freeValue 19 epoch (c.val * 16 + 8) }

/-- The reset input `rst`: engine, notification, burst counter, counters and lock at their reset values; every record
field and every slot of the configured channels unspecified; no word is put out (R26, R145). -/
def State.hardwareReset (s : State) : State :=
  { s with
    recs := Vector.ofFn fun c => if c.val < s.cfg.n then unspecifiedRecord s.epoch c else s.record c
    mem := Memory.fill (fun key => Config.freeValue 12 s.epoch (1000 + key)) (slotKeys s.cfg) s.mem
    cntRead := 0
    cntInvalid := 0
    cntRderr := 0
    cntTimeout := 0
    eng := .stopped
    notify := false
    remain := 0
    lockHeld := false
    epoch := s.epoch + 1 }

/-! ## What happens next (spec/20_memory.md R34, R38 to R40) -/

/-- Takes the first entry of the schedule: the action it calls for, and the state with the entry consumed and its draws
presented. A word is decoded when it is presented and held nowhere afterwards (R42). -/
def State.nextAction (s : State) : Action × State :=
  match s.schedule with
  | [] => (.idle, s)
  | .rst :: rest => (.reset, { s with schedule := rest })
  | .engineStep :: rest => (.run .wake, { s with schedule := rest })
  | .word p d :: rest => (.run (decode p), { s with schedule := rest, draws := d })

/-- Presents an operation-table word next (`nbits` and `w` as for `decodeTableWord`), with the draws that `s` holds. For the
row of WAKE, which no word carries, it makes the engine take that step by itself: `ENG = WAIT`, `NOTIFY = 1` (R62). -/
def State.present (s : State) (nbits w : Nat) : State :=
  if nbits = 32 then { s with schedule := .word (.sample (BitVec.ofNat 32 w)) s.draws :: s.schedule }
  else if nbits = 64 then { s with schedule := .word (.command (BitVec.ofNat 64 w)) s.draws :: s.schedule }
  else if nbits = 0 then { s with schedule := .engineStep :: s.schedule, eng := .wait, notify := true }
  else s

end Sys2Proof.Machine
end

