-- ==== Sys2Proof/Machine/Operands.lean ====
section
/-! DEFINITION. What the operands mean: the channel index (R111), the demultiplexer's lookup (R71), the validation of
calibration and width (R105, R107), the load answers (R52, R118), and the common prologue and epilogue of the
accessor operations (R98, R109). -/

namespace Sys2Proof.Machine

/-- The channel a channel field names: valid exactly when `ch < N` (R111); 6 and 7 never name one (R4). -/
def channelOf (cfg : Config) (ch : BitVec 3) : Option Chan :=
  if h : ch.toNat < 6 then (if ch.toNat < cfg.n then some ⟨ch.toNat, h⟩ else none) else none

/-- `lookup(pid)`: the channel whose `PHYS_ID` equals `pid`, or none (R8, R71). -/
def lookup (cfg : Config) (pid : Pid) : Option Chan :=
  allChans.find? fun c => decide (cfg.channels[c.val]?.map ChannelConfig.physId = some pid)

/-- A calibration pair is valid exactly when `min < max` and `max <= 4096` (R105). -/
def calValid (min max : Bound) : Bool := decide (min.toNat < max.toNat) && decide (max.toNat ≤ 4096)

/-- A width is valid exactly when `1 <= width <= 1000` (R107). -/
def widthValid (width : Nat) : Bool := decide (1 ≤ width) && decide (width ≤ 1000)

/-- The upper end of a window placed at `min`: `min(min + WIDTH, max)` (R27, R106). -/
def windowTop (min max : Bound) (width : HystWidth) : Bound :=
  BitVec.ofNat 13 (Nat.min (min.toNat + width.toNat) max.toNat)

/-- `load[c]` as the L-port word gives it (R52): absent when `p = w[63]` is 0; else the triple
`(min, max, width) = (w[12:0], w[28:16], w[41:32])`. -/
def loadAnswer (w : CWord) : Option (Bound × Bound × HystWidth) :=
  if w.extractLsb' 63 1 = 1#1 then some (w.extractLsb' 0 13, w.extractLsb' 16 13, w.extractLsb' 32 10) else none

/-- The calibration a channel starts with: the loaded triple if it is present and would pass both SET validations, else
the defaults, all or nothing (R27, R118). -/
def startCalibration (dflt : ChannelConfig) (load : CWord) : Bound × Bound × HystWidth :=
  match loadAnswer load with
  | some (m, M, w) =>
    if calValid m M && widthValid w.toNat then (m, M, w) else (dflt.calMinDef, dflt.calMaxDef, dflt.widthDef)
  | none => (dflt.calMinDef, dflt.calMaxDef, dflt.widthDef)

/-- The prologue of an accessor operation in the order of R98: channel index, operands, started, lock; the first check
that fails ends the operation with its status and nothing else. Then `body`, for the channel. -/
def access (s : State) (ch : BitVec 3) (operandsValid : Bool) (body : Chan → State → State) : State :=
  match channelOf s.cfg ch with
  | none => s.respond .invalid 0#32
  | some c =>
    if operandsValid = false then s.respond .invalid 0#32
    else if s.eng = .stopped then s.respond .notStarted 0#32
    else if s.draws.grant = false then s.respond .busy 0#32
    else body c s

/-- A read of a record field: under the lock, then the answer (R34, R35). -/
def readField (field : ChannelRecord → BitVec 32) (c : Chan) (s : State) : State :=
  (s.locked id).respond .ok (field (s.record c))

/-- A write of a record: under the lock, then, the lock released, the save request and the answer (R34, R43, R109). -/
def writeRecord (update : ChannelRecord → ChannelRecord) (c : Chan) (s : State) : State :=
  ((s.locked fun t => t.setRecord c (update (t.record c))).emitSave c).respond
    (if s.draws.persistOk then .ok else .persistFail) 0#32

end Sys2Proof.Machine
end

