-- ==== Sys2Proof/Machine/Accessor.lean ====
section
/-! DEFINITION. The accessor operations (spec/43_accessor.md R98 to R114). The `wait` operand is uninterpreted: the outcome
of the wait is the draw `grant` (R113). -/

namespace Sys2Proof.Machine

/-- GET_RAW (R100). -/
def execGetRaw (ch : BitVec 3) (_wait : BitVec 16) (s : State) : Host.Outcome State Fault Refusal :=
  .next (access s ch true (readField fun r => r.raw.setWidth 32))

/-- GET_FILT (R101). -/
def execGetFilt (ch : BitVec 3) (_wait : BitVec 16) (s : State) : Host.Outcome State Fault Refusal :=
  .next (access s ch true (readField fun r => r.filt.setWidth 32))

/-- GET_CAL (R102). -/
def execGetCal (ch : BitVec 3) (_wait : BitVec 16) (s : State) : Host.Outcome State Fault Refusal :=
  .next (access s ch true (readField calData))

/-- GET_WIDTH (R103). -/
def execGetWidth (ch : BitVec 3) (_wait : BitVec 16) (s : State) : Host.Outcome State Fault Refusal :=
  .next (access s ch true (readField fun r => r.width.setWidth 32))

/-- SET_CAL (R105, R106, R109): bounds and window of the channel in one transition. -/
def execSetCal (ch : BitVec 3) (_wait : BitVec 16) (min max : Bound) (s : State) :
    Host.Outcome State Fault Refusal :=
  .next (access s ch (calValid min max) (writeRecord fun r =>
    { r with calMin := min, calMax := max, wmin := min, wmax := windowTop min max r.width }))

/-- SET_WIDTH (R107, R108, R109): the width alone; the window is not moved. -/
def execSetWidth (ch : BitVec 3) (_wait : BitVec 16) (width : BitVec 13) (s : State) :
    Host.Outcome State Fault Refusal :=
  .next (access s ch (widthValid width.toNat) (writeRecord fun r => { r with width := width.setWidth 10 }))

/-- GET_STAT (R112): no prologue, every `ENG` state, no lock, no draw. -/
def execGetStat (sel : BitVec 3) (s : State) : Host.Outcome State Fault Refusal :=
  match sel with
  | 0#3 => .next (s.respond .ok s.cntRead)
  | 1#3 => .next (s.respond .ok s.cntInvalid)
  | 2#3 => .next (s.respond .ok s.cntRderr)
  | 3#3 => .next (s.respond .ok s.cntTimeout)
  | 4#3 => .next (s.respond .ok (engData s))
  | _ => .next (s.respond .invalid 0#32)

end Sys2Proof.Machine
end

