-- ==== Sys2Proof/Machine/Filter.lean ====
section
/-! DEFINITION. The two filter stages and the state latch that calls them: HYST (spec/41_hysteresis.md R80 to R84), AVG
(spec/42_average.md R90 to R93), latch (spec/40_acquisition.md R72). -/

namespace Sys2Proof.Machine

/-- What HYST answers: the stage output and the new window (R80). -/
structure HystResult where
  y : Nat
  wmin : Nat
  wmax : Nat
  deriving DecidableEq, Repr

/-- HYST (R80), the cases tested in the order hold, up, down (R84). Natural-number subtraction is the unsigned form R83
gives for the one difference that can be negative. -/
def hyst (x wmin wmax width cmin cmax : Nat) : HystResult :=
  if wmin ≤ x ∧ x ≤ wmax then
    { y := wmin + (wmax - wmin) / 2, wmin := wmin, wmax := wmax }
  else if wmax < x then
    let top := min (x + width / 2) cmax
    { y := x, wmin := if width < top then top - width else 0, wmax := top }
  else
    let bottom := max (x - width / 2) cmin
    { y := x, wmin := bottom, wmax := min (bottom + width) cmax }

/-- HYST on a record's window, width and calibration bounds (R72). -/
def ChannelRecord.hyst (r : ChannelRecord) (x : Sample) : HystResult :=
  Machine.hyst x.toNat r.wmin.toNat r.wmax.toNat r.width.toNat r.calMin.toNat r.calMax.toNat

/-- AVG (R92) with `K = k`: the slot at the cursor overwritten, `ACC` and `CUR` advanced, and the mean `ACC / K` in
`FILT`. -/
def average (k : Nat) (c : Chan) (mem : Memory) (r : ChannelRecord) (y : Sample) : Memory × ChannelRecord :=
  let old := Memory.read mem (slotKey c r.cur.toNat)
  let acc := BitVec.ofNat 19 (r.acc.toNat - old.toNat + y.toNat)
  (Memory.write mem (slotKey c r.cur.toNat) y,
    { r with
      acc := acc
      cur := BitVec.ofNat 7 ((r.cur.toNat + 1) % k)
      filt := BitVec.ofNat 12 (acc.toNat / k) })

/-- The state latch (R72): `RAW`, the window, the buffer slot, `CUR`, `ACC` and `FILT` of channel `c`. -/
def State.latch (s : State) (c : Chan) (x : Sample) : State :=
  let r := s.record c
  let h := r.hyst x
  let a := average s.cfg.k c s.mem
    { r with raw := x, wmin := BitVec.ofNat 13 h.wmin, wmax := BitVec.ofNat 13 h.wmax } (BitVec.ofNat 12 h.y)
  { s.setRecord c a.2 with mem := a.1 }

end Sys2Proof.Machine
end

