-- ==== Sys2Proof/Machine/Acquisition.lean ====
section
/-! DEFINITION. The sample path: NTF, WAKE, DRH, SMP and the reserved S-port kind (spec/40_acquisition.md R65 to R78,
spec/30_encoding.md R57). `drop` is the state unchanged (spec/00_scope.md R8). -/

namespace Sys2Proof.Machine

/-- NTF (R65): sets `NOTIFY` unless the engine is stopped. -/
def execNtf (s : State) : Host.Outcome State Fault Refusal :=
  if s.eng = .stopped then .next s else .next { s with notify := true }

/-- WAKE (R66): enabled exactly when `ENG = WAIT` and `NOTIFY = 1`; when it is not, there is no such transition. -/
def execWake (s : State) : Host.Outcome State Fault Refusal :=
  if s.eng = .wait ∧ s.notify = true then .next { s with notify := false, eng := .req }
  else .fault .wakeNotEnabled

/-- DRH (R67): an OK header (R68), a failed drain (R69); dropped unless `ENG = REQ`. -/
def execDrh (st : DrainStatus) (n : BitVec 8) (s : State) : Host.Outcome State Fault Refusal :=
  if s.eng = .req then
    match st with
    | .ok => if n = 0#8 then .next { s.countRead with eng := .wait } else .next { s with remain := n, eng := .burst }
    | .timeout => .next { s.countTimeout with eng := .wait }
    | .error => .next { s.countRderr with eng := .wait }
    | .reserved3 => .next { s.countRderr with eng := .wait }
  else .next s

/-- The demultiplexer and the latch of one sample (R70 to R73): unmatched, it is counted; matched and granted, it is
latched; matched and not granted, it is lost. -/
def State.takeSample (s : State) (pid : Pid) (raw : Sample) : State :=
  match lookup s.cfg pid with
  | none => s.countInvalid
  | some c => if s.draws.grant then s.locked fun t => t.latch c raw else s

/-- The end of every SMP (R70): one sample fewer to come, and with the last one the cycle completes. -/
def State.endSample (s : State) : State :=
  if s.remain.toNat - 1 = 0 then { s.countRead with remain := 0, eng := .wait }
  else { s with remain := BitVec.ofNat 8 (s.remain.toNat - 1) }

/-- SMP (R70); dropped unless `ENG = BURST`. -/
def execSmp (pid : Pid) (raw : Sample) (s : State) : Host.Outcome State Fault Refusal :=
  if s.eng = .burst then .next (s.takeSample pid raw).endSample else .next s

/-- The reserved S-port kind 3: dropped in every state (R57). -/
def execSReservedKind3 (s : State) : Host.Outcome State Fault Refusal := .next s

end Sys2Proof.Machine
end

