-- ==== Sys2Proof/Machine/Lifecycle.lean ====
section
/-! DEFINITION. START and STOP (spec/44_lifecycle.md R115 to R122) and the reserved C-port opcodes (spec/30_encoding.md
R56). -/

namespace Sys2Proof.Machine

/-- The record START gives a channel (R27). -/
def startRecord (dflt : ChannelConfig) (load : CWord) : ChannelRecord :=
  let cal := startCalibration dflt load
  { raw := 0
    filt := 0
    calMin := cal.1
    calMax := cal.2.1
    wmin := cal.1
    wmax := windowTop cal.1 cal.2.1 cal.2.2
    width := cal.2.2
    cur := 0
    acc := 0 }

/-- The initialisation of a successful START (R27, R115): every record, every slot, the counters, `NOTIFY`, `REMAIN`,
and `ENG <- WAIT`. -/
def State.initialise (s : State) : State :=
  { s with
    recs := Vector.ofFn fun c =>
      match s.cfg.channels[c.val]? with
      | some dflt => startRecord dflt s.draws.load[c]
      | none => s.record c
    mem := Memory.fill (fun _ => 0#12) (slotKeys s.cfg) s.mem
    cntRead := 0
    cntInvalid := 0
    cntRderr := 0
    cntTimeout := 0
    notify := false
    remain := 0
    eng := .wait }

/-- START (R115 to R118): INVALID while running, START_FAIL when `hw_ok = 0`, else the initialisation. -/
def execStart (s : State) : Host.Outcome State Fault Refusal :=
  if s.eng ≠ .stopped then .next (s.respond .invalid 0#32)
  else if s.draws.hwOk = false then .next (s.respond .startFail 0#32)
  else .next (s.initialise.respond .ok 0#32)

/-- STOP (R119, R120): accepted in every state; counters, records and slots keep what they hold (R146, log entry 8). -/
def execStop (s : State) : Host.Outcome State Fault Refusal :=
  .next ({ s with eng := .stopped, notify := false, remain := 0 }.respond .ok 0#32)

/-- A reserved opcode (R56): INVALID in every state, before any other check. -/
def reservedOpcode (s : State) : Host.Outcome State Fault Refusal := .next (s.respond .invalid 0#32)

/-- Opcode 0x0 (R56). -/
def execCReserved0 (s : State) : Host.Outcome State Fault Refusal := reservedOpcode s

/-- Opcode 0xA (R56). -/
def execCReservedA (s : State) : Host.Outcome State Fault Refusal := reservedOpcode s

/-- Opcode 0xB (R56). -/
def execCReservedB (s : State) : Host.Outcome State Fault Refusal := reservedOpcode s

/-- Opcode 0xC (R56). -/
def execCReservedC (s : State) : Host.Outcome State Fault Refusal := reservedOpcode s

/-- Opcode 0xD (R56). -/
def execCReservedD (s : State) : Host.Outcome State Fault Refusal := reservedOpcode s

/-- Opcode 0xE (R56). -/
def execCReservedE (s : State) : Host.Outcome State Fault Refusal := reservedOpcode s

/-- Opcode 0xF (R56). -/
def execCReservedF (s : State) : Host.Outcome State Fault Refusal := reservedOpcode s

end Sys2Proof.Machine
end

