-- ==== Sys2Proof/Machine/Dispatch.lean ====
section
/-! DEFINITION. One arm per operation, each a direct call of its meaning. -/

namespace Sys2Proof.Machine

def exec (i : Instr) (s : State) : Host.Outcome State Fault Refusal :=
  match i with
  | .ntf => Sys2Proof.Machine.execNtf s
  | .smp pid raw => Sys2Proof.Machine.execSmp pid raw s
  | .drh st n => Sys2Proof.Machine.execDrh st n s
  | .getRaw ch wait => Sys2Proof.Machine.execGetRaw ch wait s
  | .getFilt ch wait => Sys2Proof.Machine.execGetFilt ch wait s
  | .getCal ch wait => Sys2Proof.Machine.execGetCal ch wait s
  | .getWidth ch wait => Sys2Proof.Machine.execGetWidth ch wait s
  | .setCal ch wait min max => Sys2Proof.Machine.execSetCal ch wait min max s
  | .setWidth ch wait width => Sys2Proof.Machine.execSetWidth ch wait width s
  | .getStat sel => Sys2Proof.Machine.execGetStat sel s
  | .start => Sys2Proof.Machine.execStart s
  | .stop => Sys2Proof.Machine.execStop s
  | .wake => Sys2Proof.Machine.execWake s
  | .sReservedKind3 => Sys2Proof.Machine.execSReservedKind3 s
  | .cReserved0 => Sys2Proof.Machine.execCReserved0 s
  | .cReservedA => Sys2Proof.Machine.execCReservedA s
  | .cReservedB => Sys2Proof.Machine.execCReservedB s
  | .cReservedC => Sys2Proof.Machine.execCReservedC s
  | .cReservedD => Sys2Proof.Machine.execCReservedD s
  | .cReservedE => Sys2Proof.Machine.execCReservedE s
  | .cReservedF => Sys2Proof.Machine.execCReservedF s

end Sys2Proof.Machine
end

