-- ==== Sys2Proof/Machine/Step.lean ====
section
/-! DEFINITION. One step: what the schedule presents next is done as one indivisible transition (spec/20_memory.md R34, R38).
A configuration that is not well-formed has no meaning (spec/00_scope.md R5). With nothing presented the block does
nothing (spec/70_reset_and_hazards.md R146). -/

namespace Sys2Proof.Machine

def step (s : State) : Host.Outcome State Fault Refusal :=
  if s.cfg.wf then
    match s.nextAction with
    | (.idle, t) => .next t
    | (.reset, t) => .next t.hardwareReset
    | (.run i, t) => exec i t
  else .refused .illFormedConfig

/-- `s` with an operation-table word presented next, so that the very next step takes it (log entry 1). -/
def State.withFetchWord (s : State) (nbits w : Nat) : State := s.present nbits w

end Sys2Proof.Machine
end

