-- ==== Sys2Proof/Safety.lean ====
section
/-! DEFINITION. The terms in which claims speak: the invariants of spec/10_state.md R24, what counts as a safe run, and
the effect of one sample apart from the burst counter (spec/40_acquisition.md R74). -/

namespace Sys2Proof.Machine

/-- R24 items (a) to (d), (f), (g) for channel `c` with record `r`; item (c) in the strict form R24 derives. Items (e)
and (h) follow from these and the register widths. -/
abbrev RecordInv (cfg : Config) (mem : Memory) (c : Chan) (r : ChannelRecord) : Prop :=
  r.calMin.toNat < r.calMax.toNat ∧ r.calMax.toNat ≤ 4096 ∧
  1 ≤ r.width.toNat ∧ r.width.toNat ≤ 1000 ∧
  r.wmin.toNat < r.wmax.toNat ∧ r.wmax.toNat ≤ r.calMax.toNat ∧
  r.cur.toNat < cfg.k ∧
  r.acc.toNat = Memory.sum mem c cfg.k

/-- The invariant of the machine: a well-formed configuration (R5), memory in canonical form, the lock free between
operations (R22), `REMAIN` non-zero exactly in BURST (R21, R24 item (i)), no notification pending while stopped (R65,
R119), and R24 for every channel while the engine is not stopped. -/
abbrev MachineInv (s : State) : Prop :=
  s.cfg.wf = true ∧ Memory.wf s.mem ∧ s.lockHeld = false ∧
  (s.remain ≠ 0#8 ↔ s.eng = .burst) ∧
  (s.eng = .stopped → s.notify = false) ∧
  (s.eng ≠ .stopped → ∀ c : Chan, c.val < s.cfg.n → RecordInv s.cfg s.mem c (s.record c))

/-- A run of `k` steps from `s` is safe when it is never stuck and never without meaning. -/
def SafeRun (k : Nat) (s : State) : Prop := ∃ t : State, core.run k s = .next t

/-- WAKE is enabled (R66). -/
abbrev WakeEnabled (s : State) : Prop := s.eng = .wait ∧ s.notify = true

/-- The counter value after one more event (R18). -/
def oneMore (c : BitVec 32) : BitVec 32 := if c = 0xFFFFFFFF#32 then c else c + 1#32

/-- What the end of an SMP adds to its branch (R70), for a burst that expects at least one sample. -/
def afterSample (s : State) : State :=
  if s.remain = 1#8 then { s with remain := 0, cntRead := oneMore s.cntRead, eng := .wait }
  else { s with remain := s.remain - 1#8 }

/-- What the `j`-th sample of a burst does to records, buffers and `CNT_INVALID` (R74). -/
def sampleEffect (s : State) (word : SWord) (d : Draws) : State :=
  match lookup s.cfg (word.extractLsb' 20 8) with
  | none => { s with cntInvalid := oneMore s.cntInvalid }
  | some c => if d.grant then s.latch c (word.extractLsb' 0 12) else s

/-- Two states that differ at most in the Channel Records and the buffers. -/
def SameButRecords (s t : State) : Prop := t = { s with recs := t.recs, mem := t.mem }

/-- Two states no sequence of words tells apart: they differ at most in records and slots, both memories are canonical
(log entry 5), and while the engine is not stopped the records of all channels and the slots of the configuration are
equal, every cursor below `K` (R24). While it is stopped nothing is asked of records and slots (R26). -/
def Indistinguishable (s t : State) : Prop :=
  SameButRecords s t ∧ Memory.wf s.mem ∧ Memory.wf t.mem ∧
  (s.eng ≠ .stopped →
    (∀ c : Chan, c.val < s.cfg.n → t.record c = s.record c ∧ (s.record c).cur.toNat < s.cfg.k) ∧
    ∀ a ∈ slotKeys s.cfg, Memory.read t.mem a = Memory.read s.mem a)

/-- Two outcomes a caller, the driver and the store cannot tell apart: same ports, engine, notification, burst counter
and counters, or the same stop. -/
def SameOutputs : Host.Outcome State Fault Refusal → Host.Outcome State Fault Refusal → Prop
  | .next s, .next t =>
    s.rPort = t.rPort ∧ s.pPort = t.pPort ∧ s.eng = t.eng ∧ s.notify = t.notify ∧ s.remain = t.remain ∧
      s.cntRead = t.cntRead ∧ s.cntInvalid = t.cntInvalid ∧ s.cntRderr = t.cntRderr ∧ s.cntTimeout = t.cntTimeout
  | .fault a, .fault b => a = b
  | .refused a, .refused b => a = b
  | _, _ => False

end Sys2Proof.Machine
end

