-- ==== Sys2Proof/Certificates/Slice0/Obligations.lean ====
section
/-! DEFINITION. The statements for the provers. A statement about every state names its hypotheses on the state and the
operands alone; `{ s with … }` in a conclusion is the frame: every field not named there is unchanged. The reset input
and the schedule are the model's inputs (log entries 1, 2); the response and save words are the model's record of the
ports (log entry 7). -/

open Sys2Proof Sys2Proof.Machine

/-! ## Encoding -/

/-- R54, R62, R64: every operation a word carries is encoded, and its word decodes to it with every operand. -/
def Obligations.DecodeOfEncode : Prop :=
  ∀ i : Instr, i.wf = true → ∃ p, encode i = some p ∧ decode p = i

/-- R62: WAKE has no encoding: the encoder gives no word, and no word of either port decodes to it. -/
def Obligations.WakeHasNoWord : Prop :=
  encode .wake = none ∧ ∀ p, decode p ≠ .wake

/-- R55: the rows partition both word spaces: each word selects the row of the operation it decodes to, and no other. -/
def Obligations.TableRowsPartitionWords : Prop :=
  ∀ p : PortWord, ∃ r, (decode p).row = some r ∧ r.selects p = true ∧
    ∀ (j : Instr) (r' : TableRow), j.row = some r' → r'.selects p = true → r' = r

/-- R58: reserved bits and unused operand fields are ignored: words that agree on kind or opcode and on the operands the
operation uses are the same operation. -/
def Obligations.ReservedBitsIgnored : Prop :=
  (∀ v w : SWord, v.extractLsb' 30 2 = w.extractLsb' 30 2 →
    (v.extractLsb' 30 2 = 1#2 → v.extractLsb' 20 8 = w.extractLsb' 20 8 ∧ v.extractLsb' 0 12 = w.extractLsb' 0 12) →
    (v.extractLsb' 30 2 = 2#2 → v.extractLsb' 28 2 = w.extractLsb' 28 2 ∧ v.extractLsb' 0 8 = w.extractLsb' 0 8) →
    decode (.sample v) = decode (.sample w)) ∧
  (∀ v w : CWord, v.extractLsb' 60 4 = w.extractLsb' 60 4 →
    (1 ≤ (v.extractLsb' 60 4).toNat → (v.extractLsb' 60 4).toNat ≤ 6 →
      v.extractLsb' 57 3 = w.extractLsb' 57 3 ∧ v.extractLsb' 32 16 = w.extractLsb' 32 16) →
    ((v.extractLsb' 60 4 = 5#4 ∨ v.extractLsb' 60 4 = 6#4) → v.extractLsb' 0 13 = w.extractLsb' 0 13) →
    (v.extractLsb' 60 4 = 5#4 → v.extractLsb' 16 13 = w.extractLsb' 16 13) →
    (v.extractLsb' 60 4 = 7#4 → v.extractLsb' 0 3 = w.extractLsb' 0 3) →
    decode (.command v) = decode (.command w))

/-- R46, R47, R48, R50, R53, R56, R57: the decoder reads each word by its kind or opcode, the reserved ones among them, and
every operand as the unsigned value of its field, written with division and remainder. The clauses cover the four kinds and
the sixteen opcodes, so every word falls under one. -/
def Obligations.DecodeReadsEveryField : Prop :=
  (∀ w : SWord,
    (w.toNat / 2 ^ 30 = 0 → decode (.sample w) = .ntf) ∧
    (w.toNat / 2 ^ 30 = 1 → ∃ pid raw, decode (.sample w) = .smp pid raw ∧
      pid.toNat = w.toNat / 2 ^ 20 % 256 ∧ raw.toNat = w.toNat % 4096) ∧
    (w.toNat / 2 ^ 30 = 2 → ∃ st n, decode (.sample w) = .drh st n ∧ n.toNat = w.toNat % 256 ∧
      (match st with | .ok => 0 | .timeout => 1 | .error => 2 | .reserved3 => 3) = w.toNat / 2 ^ 28 % 4) ∧
    (w.toNat / 2 ^ 30 = 3 → decode (.sample w) = .sReservedKind3)) ∧
  (∀ (w : CWord) (ch : BitVec 3) (wait : BitVec 16) (a b : BitVec 13), ch.toNat = w.toNat / 2 ^ 57 % 8 →
    wait.toNat = w.toNat / 2 ^ 32 % 65536 → a.toNat = w.toNat % 8192 → b.toNat = w.toNat / 2 ^ 16 % 8192 →
    (w.toNat / 2 ^ 60 = 1 → decode (.command w) = .getRaw ch wait) ∧
    (w.toNat / 2 ^ 60 = 2 → decode (.command w) = .getFilt ch wait) ∧
    (w.toNat / 2 ^ 60 = 3 → decode (.command w) = .getCal ch wait) ∧
    (w.toNat / 2 ^ 60 = 4 → decode (.command w) = .getWidth ch wait) ∧
    (w.toNat / 2 ^ 60 = 5 → decode (.command w) = .setCal ch wait a b) ∧
    (w.toNat / 2 ^ 60 = 6 → decode (.command w) = .setWidth ch wait a) ∧
    (w.toNat / 2 ^ 60 = 7 → ∃ sel, decode (.command w) = .getStat sel ∧ sel.toNat = w.toNat % 8) ∧
    (w.toNat / 2 ^ 60 = 8 → decode (.command w) = .start) ∧
    (w.toNat / 2 ^ 60 = 9 → decode (.command w) = .stop)) ∧
  (∀ w : CWord,
    (w.toNat / 2 ^ 60 = 0 → decode (.command w) = .cReserved0) ∧
    (w.toNat / 2 ^ 60 = 10 → decode (.command w) = .cReservedA) ∧
    (w.toNat / 2 ^ 60 = 11 → decode (.command w) = .cReservedB) ∧
    (w.toNat / 2 ^ 60 = 12 → decode (.command w) = .cReservedC) ∧
    (w.toNat / 2 ^ 60 = 13 → decode (.command w) = .cReservedD) ∧
    (w.toNat / 2 ^ 60 = 14 → decode (.command w) = .cReservedE) ∧
    (w.toNat / 2 ^ 60 = 15 → decode (.command w) = .cReservedF))

/-- 30_encoding.md, section 11: words of the spec decode to the operations written beside them. -/
def Obligations.SpecWordsDecode : Prop :=
  decode (.sample 0x00000000#32) = .ntf ∧
  decode (.sample 0x80000002#32) = .drh .ok 2 ∧
  decode (.sample 0x90000000#32) = .drh .timeout 0 ∧
  decode (.sample 0xA0000000#32) = .drh .error 0 ∧
  decode (.sample 0x404007D0#32) = .smp 4 2000 ∧
  decode (.command 0x1400000A00000000#64) = .getRaw 2 10 ∧
  decode (.command 0x2000000A00000000#64) = .getFilt 0 10 ∧
  decode (.command 0x3200000500000000#64) = .getCal 1 5 ∧
  decode (.command 0x4200000000000000#64) = .getWidth 1 0 ∧
  decode (.command 0x5000000A0BB80064#64) = .setCal 0 10 100 3000 ∧
  decode (.command 0x6000000A000003E8#64) = .setWidth 0 10 1000 ∧
  decode (.command 0x7000000000000004#64) = .getStat 4 ∧
  decode (.command 0x8000000000000000#64) = .start ∧
  decode (.command 0x9000000000000000#64) = .stop

/-! ## The step and reset -/

/-- A step under a well-formed configuration runs the operation a presented word decodes to, or WAKE, on the state with that
entry of the schedule consumed and its draws presented. -/
def Obligations.StepRunsPresentedOperation : Prop :=
  (∀ (s : State) (p : PortWord) (d : Draws) (rest : List Input), s.cfg.wf = true → s.schedule = .word p d :: rest →
    step s = exec (decode p) { s with schedule := rest, draws := d }) ∧
  (∀ (s : State) (rest : List Input), s.cfg.wf = true → s.schedule = .engineStep :: rest →
    step s = exec .wake { s with schedule := rest })

/-- R146 and log entry 1: with nothing presented the block does nothing. -/
def Obligations.StepIdlesWithoutInput : Prop :=
  ∀ s : State, s.cfg.wf = true → s.schedule = [] → step s = .next s

/-- R5: which configurations are well-formed, and that a step refuses exactly the others. -/
def Obligations.StepRefusesIllFormedConfiguration : Prop :=
  ∀ s : State, step s = .refused .illFormedConfig ↔
    ¬ (2 ≤ s.cfg.n ∧ s.cfg.n ≤ 6 ∧ 1 ≤ s.cfg.k ∧ s.cfg.k ≤ 100 ∧
      (s.cfg.channels.map ChannelConfig.physId).Nodup ∧
      ∀ c ∈ s.cfg.channels, c.calMinDef.toNat < c.calMaxDef.toNat ∧ c.calMaxDef.toNat ≤ 4096 ∧
        1 ≤ c.widthDef.toNat ∧ c.widthDef.toNat ≤ 1000)

/-- R145, R26: what asserting the reset input leaves, whatever the records and slots then hold; nothing is put out. -/
def Obligations.ResetInputStopsEngine : Prop :=
  ∀ (s : State) (rest : List Input), s.cfg.wf = true → s.schedule = .rst :: rest →
    ∃ t, step s = .next t ∧ t.drainReq = false ∧
      t = { s with schedule := rest, recs := t.recs, mem := t.mem, epoch := t.epoch, eng := .stopped,
                   notify := false, remain := 0, lockHeld := false,
                   cntRead := 0, cntInvalid := 0, cntRderr := 0, cntTimeout := 0 }

/-- R26: the reset state, in the values the spec gives. -/
def Obligations.ResetStateValues : Prop :=
  State.reset.eng = .stopped ∧ State.reset.notify = false ∧ State.reset.remain = 0 ∧
  State.reset.cntRead = 0 ∧ State.reset.cntInvalid = 0 ∧ State.reset.cntRderr = 0 ∧ State.reset.cntTimeout = 0 ∧
  State.reset.lockHeld = false ∧ State.reset.drainReq = false

/-! ## The sample path -/

/-- R65: NTF sets `NOTIFY` and nothing else; while the engine is stopped it is dropped. -/
def Obligations.NtfSetsNotifyUnlessStopped : Prop :=
  ∀ s : State,
    (s.eng = .stopped → exec .ntf s = .next s) ∧
    (s.eng ≠ .stopped → exec .ntf s = .next { s with notify := true })

/-- R66: WAKE clears `NOTIFY` and moves the engine to REQ, so that `drain_req` goes from 0 to 1; when it is not enabled it
cannot be taken. `drain_req` (R45, R29) is 1 in REQ, and 0 in WAIT, BURST and STOPPED. -/
def Obligations.WakeTakesNotification : Prop :=
  ∀ s : State,
    (WakeEnabled s → s.drainReq = false ∧ exec .wake s = .next { s with notify := false, eng := .req } ∧
      State.drainReq { s with notify := false, eng := .req } = true) ∧
    (¬ WakeEnabled s → ¬ ∃ t, exec .wake s = .next t) ∧
    (s.eng = .req → s.drainReq = true) ∧
    (s.eng = .wait ∨ s.eng = .burst ∨ s.eng = .stopped → s.drainReq = false)

/-- R68: an OK header in REQ: an empty cycle is counted at once, else the burst begins. -/
def Obligations.OkHeaderStartsBurst : Prop :=
  ∀ (s : State) (n : BitVec 8), s.eng = .req →
    (n = 0#8 → exec (.drh .ok n) s = .next { s with cntRead := oneMore s.cntRead, eng := .wait }) ∧
    (n ≠ 0#8 → exec (.drh .ok n) s = .next { s with remain := n, eng := .burst })

/-- R69: a failed drain in REQ counts in one counter and returns to WAIT; `n` is ignored, the reserved status is ERROR;
samples that come after it are dropped. -/
def Obligations.FailedHeaderCountsOnly : Prop :=
  ∀ (s : State) (n : BitVec 8), s.eng = .req →
    exec (.drh .timeout n) s = .next { s with cntTimeout := oneMore s.cntTimeout, eng := .wait } ∧
    exec (.drh .error n) s = .next { s with cntRderr := oneMore s.cntRderr, eng := .wait } ∧
    exec (.drh .reserved3 n) s = .next { s with cntRderr := oneMore s.cntRderr, eng := .wait } ∧
    ∀ (t : State) (pid : Pid) (raw : Sample), t.eng = .wait → exec (.smp pid raw) t = .next t

/-- R57, R76: the reserved S-port kind and S-port words out of protocol are dropped: the state is unchanged. -/
def Obligations.OutOfProtocolWordsDropped : Prop :=
  ∀ (s : State) (st : DrainStatus) (n : BitVec 8) (pid : Pid) (raw : Sample),
    exec .sReservedKind3 s = .next s ∧
    (s.eng ≠ .req → exec (.drh st n) s = .next s) ∧
    (s.eng ≠ .burst → exec (.smp pid raw) s = .next s) ∧
    (s.eng = .stopped → exec .ntf s = .next s)

/-- R71: under a well-formed configuration `lookup` answers the one channel whose identifier equals `pid`, or none. -/
def Obligations.LookupFindsOwner : Prop :=
  ∀ (cfg : Config) (pid : Pid), cfg.wf = true →
    (∀ c : Chan, lookup cfg pid = some c ↔ cfg.channels[c.val]?.map ChannelConfig.physId = some pid) ∧
    (lookup cfg pid = none ↔ ∀ ch ∈ cfg.channels, ch.physId ≠ pid)

/-- R71: an unmatched sample in BURST is counted in `CNT_INVALID` whatever the draws, consumes one unit of `REMAIN`, and
changes no record and no slot. -/
def Obligations.UnmatchedSampleCounted : Prop :=
  ∀ (s : State) (pid : Pid) (raw : Sample), s.eng = .burst → s.remain ≠ 0#8 →
    (∀ ch ∈ s.cfg.channels, ch.physId ≠ pid) →
    exec (.smp pid raw) s = .next (afterSample { s with cntInvalid := oneMore s.cntInvalid })

/-- R73: a matched sample whose lock was missed changes no record, no slot and no error counter; it consumes one unit of
`REMAIN`. -/
def Obligations.MissedLockDropsSample : Prop :=
  ∀ (s : State) (c : Chan) (raw : Sample) (ch : ChannelConfig), s.cfg.wf = true → s.eng = .burst → s.remain ≠ 0#8 →
    s.cfg.channels[c.val]? = some ch → s.draws.grant = false →
    exec (.smp ch.physId raw) s = .next (afterSample s)

/-- R70, R72, R92: a matched, granted sample in BURST. The record of its channel takes the raw value, the window HYST gives, and
the mean over the `K` slots after the write; the slot at the old cursor takes the stage output; the cursor advances
modulo `K`; every other record, slot and field is unchanged but for `REMAIN` and, with the last sample, `CNT_READ` and
`ENG`. No value is truncated. -/
def Obligations.GrantedSampleLatched : Prop :=
  ∀ (s : State) (c : Chan) (raw : Sample) (ch : ChannelConfig), MachineInv s → s.eng = .burst →
    s.cfg.channels[c.val]? = some ch → s.draws.grant = true →
    ∃ t, exec (.smp ch.physId raw) s = .next t ∧
      let r := s.record c
      let h := hyst raw.toNat r.wmin.toNat r.wmax.toNat r.width.toNat r.calMin.toNat r.calMax.toNat
      let key := slotKey c r.cur.toNat
      let r' := t.record c
      t = { afterSample s with recs := t.recs, mem := t.mem } ∧
      (∀ d : Chan, d ≠ c → t.record d = s.record d) ∧
      (∀ a : Nat, a ≠ key → Memory.read t.mem a = Memory.read s.mem a) ∧
      (Memory.read t.mem key).toNat = h.y ∧
      r'.raw = raw ∧ r'.wmin.toNat = h.wmin ∧ r'.wmax.toNat = h.wmax ∧
      r'.cur.toNat = (r.cur.toNat + 1) % s.cfg.k ∧
      r'.acc.toNat = Memory.sum t.mem c s.cfg.k ∧
      r'.filt.toNat = Memory.sum t.mem c s.cfg.k / s.cfg.k ∧
      r' = { r' with calMin := r.calMin, calMax := r.calMax, width := r.width }

/-- R77: an NTF in REQ or BURST sets `NOTIFY`, a second one changes nothing more; every DRH and SMP completes and keeps a
pending `NOTIFY`, and so does every other operation in REQ or BURST but STOP; and when the cycle so ends, WAKE is enabled
at once and takes the one notification into one further cycle. -/
def Obligations.NotificationDuringCycle : Prop :=
  ∀ s : State,
    (s.eng = .req ∨ s.eng = .burst → exec .ntf s = .next { s with notify := true } ∧
      (s.notify = true → exec .ntf s = .next s)) ∧
    (s.notify = true → ∀ i : Instr, (∃ st n, i = .drh st n) ∨ (∃ pid raw, i = .smp pid raw) →
      ∃ t, exec i s = .next t ∧ t.notify = true ∧ (t.eng = .wait → WakeEnabled t)) ∧
    (s.notify = true → s.eng = .req ∨ s.eng = .burst → ∀ (t : State) (i : Instr), i ≠ .stop → exec i s = .next t →
      t.notify = true ∧
      (t.eng = .wait → WakeEnabled t ∧ exec .wake t = .next { t with notify := false, eng := .req }))

/-! ## The filter stages -/

/-- R81: inside the window, both ends included, the output is the midpoint and the window stays. -/
def Obligations.HystHoldsInsideWindow : Prop :=
  ∀ x wmin wmax width cmin cmax : Nat, wmin ≤ x → x ≤ wmax →
    hyst x wmin wmax width cmin cmax = ⟨wmin + (wmax - wmin) / 2, wmin, wmax⟩

/-- R82: above the window, it slides up: the new top is `min(x + width/2, cmax)`, the new bottom `width` below it or 0. -/
def Obligations.HystSlidesUp : Prop :=
  ∀ x wmin wmax width cmin cmax : Nat, wmax < x →
    (hyst x wmin wmax width cmin cmax).y = x ∧
    (hyst x wmin wmax width cmin cmax).wmax = min (x + width / 2) cmax ∧
    (min (x + width / 2) cmax > width →
      (hyst x wmin wmax width cmin cmax).wmin + width = min (x + width / 2) cmax) ∧
    (min (x + width / 2) cmax ≤ width → (hyst x wmin wmax width cmin cmax).wmin = 0)

/-- R83: below the window, it slides down: over the integers, the new bottom is `max(x - width/2, cmin)` and the new top
`min(bottom + width, cmax)`. -/
def Obligations.HystSlidesDown : Prop :=
  ∀ x wmin wmax width cmin cmax : Nat, x < wmin → wmin ≤ wmax →
    (hyst x wmin wmax width cmin cmax).y = x ∧
    ((hyst x wmin wmax width cmin cmax).wmin : Int) = max ((x : Int) - (width / 2 : Nat)) cmin ∧
    (hyst x wmin wmax width cmin cmax).wmax = min ((hyst x wmin wmax width cmin cmax).wmin + width) cmax

/-- R87 (a), (b): under the invariants the output is a sample value, and the new window is not empty and stays below `cmax`. -/
def Obligations.HystKeepsWindowInvariant : Prop :=
  ∀ x wmin wmax width cmin cmax : Nat, x ≤ 4095 → wmin < wmax → wmax ≤ cmax → cmin < cmax → cmax ≤ 4096 →
    1 ≤ width → width ≤ 1000 →
    (hyst x wmin wmax width cmin cmax).y ≤ 4095 ∧
    (hyst x wmin wmax width cmin cmax).wmin < (hyst x wmin wmax width cmin cmax).wmax ∧
    (hyst x wmin wmax width cmin cmax).wmax ≤ cmax

/-- R87 (c), (d), (e): two samples inside the window give the same output; after a slide that no bound clamps, the same
sample again is held, at `x`, or at `x - 1` after an upward slide with an odd width. -/
def Obligations.HystHoldsRepeatedSample : Prop :=
  ∀ x wmin wmax width cmin cmax : Nat,
    let h := hyst x wmin wmax width cmin cmax
    let again := hyst x h.wmin h.wmax width cmin cmax
    (∀ x', wmin ≤ x → x ≤ wmax → wmin ≤ x' → x' ≤ wmax → (hyst x' h.wmin h.wmax width cmin cmax).y = h.y) ∧
    (wmin ≤ wmax → wmax < x → x + width / 2 ≤ cmax → width < x + width / 2 → 1 ≤ width →
      again = ⟨if width % 2 = 0 then x else x - 1, h.wmin, h.wmax⟩) ∧
    (wmin ≤ wmax → x < wmin → width / 2 ≤ x → cmin + width / 2 ≤ x → h.wmin + width ≤ cmax →
      again = ⟨x, h.wmin, h.wmax⟩)

/-- R96: after a latched sample `FILT` lies between the least and the greatest of the channel's slots. -/
def Obligations.FilteredValueWithinSlots : Prop :=
  ∀ (s t : State) (c : Chan) (raw : Sample) (ch : ChannelConfig) (lo hi : Nat), MachineInv s → s.eng = .burst →
    s.cfg.channels[c.val]? = some ch → s.draws.grant = true →
    exec (.smp ch.physId raw) s = .next t →
    (∀ i, i < s.cfg.k → lo ≤ (Memory.read t.mem (slotKey c i)).toNat ∧
      (Memory.read t.mem (slotKey c i)).toNat ≤ hi) →
    lo ≤ (t.record c).filt.toNat ∧ (t.record c).filt.toNat ≤ hi

/-! ## The accessor operations -/

/-- R98, R99, R105, R107, R110, R111: the checks of the six accessor operations in their order, each failure answering its
status and changing nothing else. -/
def Obligations.AccessorChecksInOrder : Prop :=
  ∀ (s : State) (ch : BitVec 3) (wait : BitVec 16) (min max : Bound) (width : BitVec 13) (i : Instr) (valid : Bool),
    s.cfg.wf = true →
    (i, valid) ∈ [(Instr.getRaw ch wait, true), (.getFilt ch wait, true), (.getCal ch wait, true),
      (.getWidth ch wait, true),
      (.setCal ch wait min max, decide (min.toNat < max.toNat ∧ max.toNat ≤ 4096)),
      (.setWidth ch wait width, decide (1 ≤ width.toNat ∧ width.toNat ≤ 1000))] →
    (s.cfg.n ≤ ch.toNat → exec i s = .next { s with rPort := s.rPort ++ [0x2000000000000000#64] }) ∧
    (ch.toNat < s.cfg.n → valid = false →
      exec i s = .next { s with rPort := s.rPort ++ [0x2000000000000000#64] }) ∧
    (ch.toNat < s.cfg.n → valid = true → s.eng = .stopped →
      exec i s = .next { s with rPort := s.rPort ++ [0xA000000000000000#64] }) ∧
    (ch.toNat < s.cfg.n → valid = true → s.eng ≠ .stopped → s.draws.grant = false →
      exec i s = .next { s with rPort := s.rPort ++ [0x4000000000000000#64] })

/-- R100, R101, R103: a granted GET_RAW, GET_FILT, GET_WIDTH of a channel of a started block answers OK with the field,
zero-extended, and leaves everything else, the lock free. -/
def Obligations.GrantedReadAnswersField : Prop :=
  ∀ (s : State) (c : Chan) (ch : BitVec 3) (wait : BitVec 16), ch.toNat = c.val → c.val < s.cfg.n →
    s.eng ≠ .stopped → s.draws.grant = true →
    exec (.getRaw ch wait) s =
      .next { s with lockHeld := false, rPort := s.rPort ++ [(s.record c).raw.setWidth 64] } ∧
    exec (.getFilt ch wait) s =
      .next { s with lockHeld := false, rPort := s.rPort ++ [(s.record c).filt.setWidth 64] } ∧
    exec (.getWidth ch wait) s =
      .next { s with lockHeld := false, rPort := s.rPort ++ [(s.record c).width.setWidth 64] }

/-- R102: a granted GET_CAL answers OK with `CAL_MIN` in bits `[12:0]` and `CAL_MAX` in bits `[28:16]`, all other bits 0. -/
def Obligations.GrantedGetCalAnswersBounds : Prop :=
  ∀ (s : State) (c : Chan) (ch : BitVec 3) (wait : BitVec 16), ch.toNat = c.val → c.val < s.cfg.n →
    s.eng ≠ .stopped → s.draws.grant = true →
    ∃ w : CWord, exec (.getCal ch wait) s = .next { s with lockHeld := false, rPort := s.rPort ++ [w] } ∧
      w.extractLsb' 0 13 = (s.record c).calMin ∧ w.extractLsb' 13 3 = 0 ∧
      w.extractLsb' 16 13 = (s.record c).calMax ∧ w.extractLsb' 29 35 = 0

/-- R106, R109, R51: a granted, valid SET_CAL writes both bounds and places the window at `[min, min(min + WIDTH, max)]`;
the save word carries the record after the update, whatever `persist_ok`; the answer is OK or PERSIST_FAIL. -/
def Obligations.GrantedSetCalMovesWindow : Prop :=
  ∀ (s : State) (c : Chan) (ch : BitVec 3) (wait : BitVec 16) (min max : Bound), ch.toNat = c.val → c.val < s.cfg.n →
    min.toNat < max.toNat → max.toNat ≤ 4096 → s.eng ≠ .stopped → s.draws.grant = true →
    ∃ (w : CWord) (top : Bound),
      exec (.setCal ch wait min max) s =
        .next { s with
          lockHeld := false
          recs := s.recs.set c { s.record c with calMin := min, calMax := max, wmin := min, wmax := top }
          pPort := s.pPort ++ [w]
          rPort := s.rPort ++ [if s.draws.persistOk then 0#64 else 0x6000000000000000#64] } ∧
      top.toNat = Nat.min (min.toNat + (s.record c).width.toNat) max.toNat ∧
      w.extractLsb' 61 3 = ch ∧ w.extractLsb' 42 19 = 0 ∧ w.extractLsb' 32 10 = (s.record c).width ∧
      w.extractLsb' 29 3 = 0 ∧ w.extractLsb' 16 13 = max ∧ w.extractLsb' 13 3 = 0 ∧ w.extractLsb' 0 13 = min

/-- R108, R109, R51: a granted, valid SET_WIDTH writes the width and nothing else of the record; the save word carries the
record after the update, whatever `persist_ok`; the answer is OK or PERSIST_FAIL. -/
def Obligations.GrantedSetWidthKeepsWindow : Prop :=
  ∀ (s : State) (c : Chan) (ch : BitVec 3) (wait : BitVec 16) (width : BitVec 13), ch.toNat = c.val →
    c.val < s.cfg.n → 1 ≤ width.toNat → width.toNat ≤ 1000 → s.eng ≠ .stopped → s.draws.grant = true →
    ∃ (w : CWord) (width' : HystWidth),
      exec (.setWidth ch wait width) s =
        .next { s with
          lockHeld := false
          recs := s.recs.set c { s.record c with width := width' }
          pPort := s.pPort ++ [w]
          rPort := s.rPort ++ [if s.draws.persistOk then 0#64 else 0x6000000000000000#64] } ∧
      width'.toNat = width.toNat ∧
      w.extractLsb' 61 3 = ch ∧ w.extractLsb' 42 19 = 0 ∧ w.extractLsb' 32 10 = width' ∧
      w.extractLsb' 29 3 = 0 ∧ w.extractLsb' 16 13 = (s.record c).calMax ∧
      w.extractLsb' 13 3 = 0 ∧ w.extractLsb' 0 13 = (s.record c).calMin

/-- R112: GET_STAT in every state, no matter the draws: a counter, the engine word, or INVALID for `sel >= 5`. -/
def Obligations.GetStatAnswersCounters : Prop :=
  ∀ s : State,
    exec (.getStat 0) s = .next { s with rPort := s.rPort ++ [s.cntRead.setWidth 64] } ∧
    exec (.getStat 1) s = .next { s with rPort := s.rPort ++ [s.cntInvalid.setWidth 64] } ∧
    exec (.getStat 2) s = .next { s with rPort := s.rPort ++ [s.cntRderr.setWidth 64] } ∧
    exec (.getStat 3) s = .next { s with rPort := s.rPort ++ [s.cntTimeout.setWidth 64] } ∧
    (∃ w : CWord, exec (.getStat 4) s = .next { s with rPort := s.rPort ++ [w] } ∧
      (w.extractLsb' 0 2).toNat = (match s.eng with | .stopped => 0 | .wait => 1 | .req => 2 | .burst => 3) ∧
      w.getLsbD 2 = s.notify ∧ w.extractLsb' 3 5 = 0 ∧ w.extractLsb' 8 8 = s.remain ∧ w.extractLsb' 16 48 = 0) ∧
    (∀ sel : BitVec 3, 5 ≤ sel.toNat →
      exec (.getStat sel) s = .next { s with rPort := s.rPort ++ [0x2000000000000000#64] })

/-- R104: the reads change no state in any outcome: from a state with the lock free only the response is new, and the same
read again gives the same word. -/
def Obligations.ReadsArePure : Prop :=
  ∀ (s : State) (ch : BitVec 3) (wait : BitVec 16) (sel : BitVec 3) (i : Instr), s.lockHeld = false →
    i ∈ [Instr.getRaw ch wait, .getFilt ch wait, .getCal ch wait, .getWidth ch wait, .getStat sel] →
    ∃ w, exec i s = .next { s with rPort := s.rPort ++ [w] } ∧
      exec i { s with rPort := s.rPort ++ [w] } = .next { s with rPort := s.rPort ++ [w] ++ [w] }

/-! ## Lifecycle and reserved opcodes -/

/-- R27, R115, R118 (load words R52): a START that succeeds. Every channel takes its loaded triple if it is present and
valid, else its defaults; every slot of the configuration is 0; the counters, `NOTIFY` and `REMAIN` are 0 and the engine
waits; the answer is OK; nothing else changes. -/
def Obligations.StartInitialisesEverything : Prop :=
  ∀ s : State, s.cfg.wf = true → Memory.wf s.mem → s.eng = .stopped → s.draws.hwOk = true →
    ∃ t, exec .start s = .next t ∧
      t = { s with recs := t.recs, mem := t.mem, cntRead := 0, cntInvalid := 0, cntRderr := 0, cntTimeout := 0,
                   notify := false, remain := 0, eng := .wait, rPort := s.rPort ++ [0#64] } ∧
      (∀ (c : Chan) (ch : ChannelConfig), s.cfg.channels[c.val]? = some ch →
        ∃ (m M : Bound) (w : HystWidth) (top : Bound),
          t.record c = ⟨0, 0, m, M, m, top, w, 0, 0⟩ ∧
          top.toNat = Nat.min (m.toNat + w.toNat) M.toNat ∧
          (let l := s.draws.load[c]
           let m' := l.extractLsb' 0 13
           let M' := l.extractLsb' 16 13
           let w' := l.extractLsb' 32 10
           let usable := l.extractLsb' 63 1 = 1#1 ∧ m'.toNat < M'.toNat ∧ M'.toNat ≤ 4096 ∧
             1 ≤ w'.toNat ∧ w'.toNat ≤ 1000
           (usable → m = m' ∧ M = M' ∧ w = w') ∧
           (¬ usable → m = ch.calMinDef ∧ M = ch.calMaxDef ∧ w = ch.widthDef))) ∧
      (∀ (c : Chan) (i : Nat), c.val < s.cfg.n → i < s.cfg.k → Memory.read t.mem (slotKey c i) = 0#12) ∧
      (∀ c : Chan, s.cfg.n ≤ c.val → t.record c = s.record c) ∧
      (∀ a : Nat, a ∉ slotKeys s.cfg → Memory.read t.mem a = Memory.read s.mem a)

/-- R116, R117: START while running answers INVALID whatever the draws, START with `hw_ok = 0` answers START_FAIL; neither
changes anything else. -/
def Obligations.StartRejections : Prop :=
  ∀ s : State,
    (s.eng ≠ .stopped → exec .start s = .next { s with rPort := s.rPort ++ [0x2000000000000000#64] }) ∧
    (s.eng = .stopped → s.draws.hwOk = false →
      exec .start s = .next { s with rPort := s.rPort ++ [0x8000000000000000#64] })

/-- R119, R120: STOP in every state. -/
def Obligations.StopAlwaysStops : Prop :=
  ∀ s : State,
    exec .stop s = .next { s with eng := .stopped, notify := false, remain := 0, rPort := s.rPort ++ [0#64] }

/-- R56: a reserved opcode, and every word that carries one, answers INVALID in every state and changes nothing else. -/
def Obligations.ReservedOpcodesInvalid : Prop :=
  ∀ (s : State) (i : Instr), i ∈ [Instr.cReserved0, .cReservedA, .cReservedB, .cReservedC, .cReservedD, .cReservedE,
      .cReservedF] →
    exec i s = .next { s with rPort := s.rPort ++ [0x2000000000000000#64] } ∧
    ∀ w : CWord, w.toNat / 2 ^ 60 = 0 ∨ 10 ≤ w.toNat / 2 ^ 60 →
      exec (decode (.command w)) s = .next { s with rPort := s.rPort ++ [0x2000000000000000#64] }

/-! ## Output words -/

/-- R49, R123: the layout of a response word and the six status codes. -/
def Obligations.ResponseWordLayout : Prop :=
  ∀ (st : Status) (data : BitVec 32),
    (responseWord st data).extractLsb' 0 32 = data ∧ (responseWord st data).extractLsb' 32 29 = 0 ∧
    ((responseWord st data).extractLsb' 61 3).toNat =
      (match st with | .ok => 0 | .invalid => 1 | .busy => 2 | .persistFail => 3 | .startFail => 4 | .notStarted => 5)

/-- R49: every command word is answered by exactly one response word, whose status is one of the six, whose bits `[60:32]`
are 0, and whose data is 0 unless the status is OK. -/
def Obligations.EveryCommandAnswered : Prop :=
  ∀ (s : State) (w : CWord), ∃ (t : State) (r : CWord), exec (decode (.command w)) s = .next t ∧
    t.rPort = s.rPort ++ [r] ∧ (r.extractLsb' 61 3).toNat ≤ 5 ∧ r.extractLsb' 32 29 = 0 ∧
    (r.extractLsb' 61 3 ≠ 0 → r.extractLsb' 0 32 = 0)

/-- R133: of several failures of one command word exactly one status is reported, the first in the order of the rule. -/
def Obligations.FirstFailureReported : Prop :=
  ∀ (s : State) (w : CWord) (op ch a b : Nat), s.cfg.wf = true → op = w.toNat / 2 ^ 60 → ch = w.toNat / 2 ^ 57 % 8 →
    a = w.toNat % 8192 → b = w.toNat / 2 ^ 16 % 8192 →
    ∃ (t : State) (r : CWord), exec (decode (.command w)) s = .next t ∧ t.rPort = s.rPort ++ [r] ∧
      (r.extractLsb' 61 3).toNat =
        if op = 0 ∨ 10 ≤ op then 1
        else if op = 8 then (if s.eng ≠ .stopped then 1 else if s.draws.hwOk = false then 4 else 0)
        else if op = 9 then 0
        else if op = 7 then (if 5 ≤ a % 8 then 1 else 0)
        else if s.cfg.n ≤ ch then 1
        else if (op = 5 ∧ ¬ (a < b ∧ b ≤ 4096)) ∨ (op = 6 ∧ ¬ (1 ≤ a ∧ a ≤ 1000)) then 1
        else if s.eng = .stopped then 5
        else if s.draws.grant = false then 2
        else if (op = 5 ∨ op = 6) ∧ s.draws.persistOk = false then 3
        else 0

/-- R57, R131: no S-port word and no WAKE puts out a word, and no S-port word is ever stuck. -/
def Obligations.SamplePathIsSilent : Prop :=
  (∀ (s : State) (w : SWord), ∃ t, exec (decode (.sample w)) s = .next t) ∧
  (∀ (s t : State) (i : Instr), i = .wake ∨ (∃ w : SWord, i = decode (.sample w)) → exec i s = .next t →
    t.rPort = s.rPort ∧ t.pPort = s.pPort)

/-- R134: a command that answers INVALID, BUSY, START_FAIL or NOT_STARTED has changed no state at all; one that answers
PERSIST_FAIL has completed the update that an OK answer would have completed. -/
def Obligations.FailedCommandChangesNothing : Prop :=
  (∀ (s t : State) (w r : CWord), exec (decode (.command w)) s = .next t → t.rPort = s.rPort ++ [r] →
    r.extractLsb' 61 3 ≠ 0#3 → r.extractLsb' 61 3 ≠ 3#3 → t = { s with rPort := s.rPort ++ [r] }) ∧
  (∀ (s t u : State) (w : CWord),
    exec (decode (.command w)) { s with draws := { s.draws with persistOk := false } } = .next t →
    exec (decode (.command w)) { s with draws := { s.draws with persistOk := true } } = .next u →
    t = { u with rPort := t.rPort, draws := t.draws })

/-- R109: a save word is put out only by a SET that answers OK or PERSIST_FAIL, and then exactly one. -/
def Obligations.SaveWordsOnlyFromSets : Prop :=
  ∀ (s t : State) (i : Instr), exec i s = .next t →
    t.pPort = s.pPort ∨
    (((∃ ch wait min max, i = .setCal ch wait min max) ∨ (∃ ch wait width, i = .setWidth ch wait width)) ∧
      ∃ v r, t.pPort = s.pPort ++ [v] ∧ t.rPort = s.rPort ++ [r] ∧
        (r.extractLsb' 61 3 = 0#3 ∨ r.extractLsb' 61 3 = 3#3))

/-! ## Whole-machine rules -/

/-- R25, R37: who may write what in a Channel Record and the buffers, START and the reset input aside. -/
def Obligations.RecordOwnership : Prop :=
  ∀ (s t : State) (i : Instr) (c : Chan), exec i s = .next t → i ≠ .start →
    ((∀ pid raw, i ≠ .smp pid raw) →
      t.mem = s.mem ∧ (t.record c).raw = (s.record c).raw ∧ (t.record c).filt = (s.record c).filt ∧
      (t.record c).cur = (s.record c).cur ∧ (t.record c).acc = (s.record c).acc) ∧
    ((∀ pid raw, i ≠ .smp pid raw) → (∀ ch wait min max, i ≠ .setCal ch wait min max) →
      (t.record c).wmin = (s.record c).wmin ∧ (t.record c).wmax = (s.record c).wmax) ∧
    ((∀ ch wait min max, i ≠ .setCal ch wait min max) →
      (t.record c).calMin = (s.record c).calMin ∧ (t.record c).calMax = (s.record c).calMax) ∧
    ((∀ ch wait width, i ≠ .setWidth ch wait width) → (t.record c).width = (s.record c).width)

/-- R18: only DRH, SMP and START change the counters, and but for START each either stays or counts one event, never
wrapping. -/
def Obligations.CountersMonotonic : Prop :=
  ∀ (s t : State) (i : Instr), exec i s = .next t → i ≠ .start →
    (t.cntRead = s.cntRead ∨ t.cntRead = oneMore s.cntRead) ∧
    (t.cntInvalid = s.cntInvalid ∨ t.cntInvalid = oneMore s.cntInvalid) ∧
    (t.cntRderr = s.cntRderr ∨ t.cntRderr = oneMore s.cntRderr) ∧
    (t.cntTimeout = s.cntTimeout ∨ t.cntTimeout = oneMore s.cntTimeout) ∧
    s.cntRead.toNat ≤ t.cntRead.toNat ∧ s.cntInvalid.toNat ≤ t.cntInvalid.toNat ∧
    s.cntRderr.toNat ≤ t.cntRderr.toNat ∧ s.cntTimeout.toNat ≤ t.cntTimeout.toNat ∧
    ((∀ st n, i ≠ .drh st n) → (∀ pid raw, i ≠ .smp pid raw) →
      t.cntRead = s.cntRead ∧ t.cntInvalid = s.cntInvalid ∧ t.cntRderr = s.cntRderr ∧ t.cntTimeout = s.cntTimeout)

/-- R19: the engine's transitions: only these operations, from these states, change `ENG`. -/
def Obligations.EngineTransitions : Prop :=
  ∀ (s t : State) (i : Instr), exec i s = .next t → t.eng ≠ s.eng →
    (i = .start ∧ s.eng = .stopped ∧ t.eng = .wait) ∨
    (i = .wake ∧ s.eng = .wait ∧ t.eng = .req) ∨
    ((∃ st n, i = .drh st n) ∧ s.eng = .req ∧ (t.eng = .wait ∨ t.eng = .burst)) ∨
    ((∃ pid raw, i = .smp pid raw) ∧ s.eng = .burst ∧ t.eng = .wait) ∨
    (i = .stop ∧ t.eng = .stopped)

/-- R20, R131: `NOTIFY` is raised by NTF in a started block alone, and lowered by WAKE, START and STOP alone. -/
def Obligations.NotifyWriters : Prop :=
  ∀ (s t : State) (i : Instr), exec i s = .next t → t.notify ≠ s.notify →
    (i = .ntf ∧ s.eng ≠ .stopped ∧ t.notify = true) ∨
    ((i = .wake ∨ i = .start ∨ i = .stop) ∧ t.notify = false)

/-- R21: `REMAIN` is loaded by DRH, decremented by SMP in BURST, cleared by START and STOP, and changed by nothing else. -/
def Obligations.RemainWriters : Prop :=
  ∀ (s t : State) (i : Instr), exec i s = .next t → t.remain ≠ s.remain →
    (s.eng = .req ∧ i = .drh .ok t.remain) ∨
    (s.eng = .burst ∧ (∃ pid raw, i = .smp pid raw) ∧ t.remain.toNat + 1 = s.remain.toNat) ∨
    ((i = .start ∨ i = .stop) ∧ t.remain = 0#8)

/-- R4: parameters are constant: no step changes the configuration. -/
def Obligations.ConfigurationConstant : Prop :=
  ∀ s t : State, step s = .next t → t.cfg = s.cfg

/-- The buffer memory keeps its one canonical form under every step, from every state (log entry 5). -/
def Obligations.MemoryStaysCanonical : Prop :=
  ∀ s t : State, step s = .next t → Memory.wf s.mem → Memory.wf t.mem

/-- The invariants hold at reset. -/
def Obligations.InvariantAtReset : Prop := MachineInv State.reset

/-- R24: the invariants are kept by every step, from every state that has them. -/
def Obligations.StepKeepsInvariant : Prop :=
  ∀ s t : State, MachineInv s → step s = .next t → MachineInv t

/-- R66, R57, R134, 93 section 2: under a well-formed configuration the only stuck step is a WAKE that is not enabled. That
such a step answers the fault `wakeNotEnabled` is the model's rendering of R66's "it cannot be taken" (log entry 11,
DEDUCED); that a step with an empty schedule answers next is the model's choice (log entry 1). -/
def Obligations.OnlyDisabledWakeIsStuck : Prop :=
  ∀ s : State, s.cfg.wf = true →
    (∃ t, step s = .next t) ∨
    (step s = .fault .wakeNotEnabled ∧ (∃ rest, s.schedule = .engineStep :: rest) ∧ ¬ WakeEnabled s)

/-- R74, first half: a whole drain cycle. From WAIT with a pending notification, WAKE, an OK header announcing the samples, and
exactly those samples end in WAIT with `REMAIN = 0` (in WAIT it is 0 by R21, a part of `MachineInv`, and a cycle with no
sample does not write it), `CNT_READ` one higher, and the samples' effects applied in order. -/
def Obligations.DrainCycleAppliesSamplesInOrder : Prop :=
  ∀ (s : State) (hd : SWord) (d : Draws) (ws : List (SWord × Draws)) (rest : List Input),
    s.cfg.wf = true → s.eng = .wait → s.notify = true → s.lockHeld = false → s.remain = 0#8 ∨ ws ≠ [] →
    s.schedule = .engineStep :: .word (.sample hd) d :: (ws.map fun w => Input.word (.sample w.1) w.2) ++ rest →
    hd.extractLsb' 30 2 = 2#2 → hd.extractLsb' 28 2 = 0#2 → (hd.extractLsb' 0 8).toNat = ws.length →
    (∀ w ∈ ws, w.1.extractLsb' 30 2 = 1#2) →
    ∃ t : State, core.run (ws.length + 2) s = .next t ∧
      let u := ws.foldl (fun u w => sampleEffect u w.1 w.2) s
      t = { s with eng := .wait, notify := false, remain := 0, schedule := rest, draws := t.draws,
                   recs := u.recs, mem := u.mem, cntInvalid := u.cntInvalid, cntRead := oneMore s.cntRead }

/-- R74, second half: a failed drain cycle leaves every record and slot as it was and counts in one counter. -/
def Obligations.FailedDrainCycleTouchesNoRecord : Prop :=
  ∀ (s : State) (hd : SWord) (d : Draws) (rest : List Input),
    s.cfg.wf = true → s.eng = .wait → s.notify = true →
    s.schedule = .engineStep :: .word (.sample hd) d :: rest →
    hd.extractLsb' 30 2 = 2#2 → hd.extractLsb' 28 2 ≠ 0#2 →
    core.run 2 s = .next { s with
      notify := false
      schedule := rest
      draws := d
      cntTimeout := if hd.extractLsb' 28 2 = 1#2 then oneMore s.cntTimeout else s.cntTimeout
      cntRderr := if hd.extractLsb' 28 2 = 1#2 then s.cntRderr else oneMore s.cntRderr }

/-- R121: no value of a record or slot survives STOP and START: two stopped blocks with the same configuration and the same
answers of the environment have the same records after START, zero slots and zero counters, whatever they held. -/
def Obligations.RestartForgetsEverything : Prop :=
  ∀ s t s' t' : State, s.cfg = t.cfg → s.draws = t.draws → s.eng = .stopped → t.eng = .stopped →
    s.cfg.wf = true → Memory.wf s.mem → Memory.wf t.mem → s.draws.hwOk = true →
    exec .start s = .next s' → exec .start t = .next t' →
    (∀ c : Chan, c.val < s.cfg.n → s'.record c = t'.record c) ∧
    (∀ (c : Chan) (i : Nat), c.val < s.cfg.n → i < s.cfg.k →
      Memory.read s'.mem (slotKey c i) = 0#12 ∧ Memory.read t'.mem (slotKey c i) = 0#12) ∧
    (∀ u ∈ [s', t'], u.eng = .wait ∧ u.notify = false ∧ u.remain = 0 ∧ u.cntRead = 0 ∧ u.cntInvalid = 0 ∧
      u.cntRderr = 0 ∧ u.cntTimeout = 0)

/-- R26, 93 I1: what the records and slots hold while the engine is stopped is unobservable: two blocks that differ in nothing
else put out the same words and go through the same engine states and counters for ever, whatever is presented. -/
def Obligations.StoppedRecordsUnobservable : Prop :=
  ∀ (k : Nat) (s t : State), SameButRecords s t → Memory.wf s.mem → Memory.wf t.mem → s.eng = .stopped →
    SameOutputs (core.run k s) (core.run k t)

/-- R26, R29, 93 I1, as an invariant of pairs of states: `Indistinguishable` is kept by every step, from every two states that
have it, or both steps stop for the same reason. Two stopped blocks that differ at most in records and slots have it
(memories canonical, log entry 5), and whoever has it shows the same outputs. -/
def Obligations.StepKeepsIndistinguishable : Prop :=
  ∀ s t : State, Indistinguishable s t →
    (∃ s' t', step s = .next s' ∧ step t = .next t' ∧ Indistinguishable s' t') ∨
    (∃ f, step s = .fault f ∧ step t = .fault f) ∨
    (∃ r, step s = .refused r ∧ step t = .refused r)
end

