-- ==== Sys2Proof/Laws/Memory.lean ====
section
/-! SUPPORT. The laws of the buffer memory (spec/20_memory.md R30, R31): read after write, the canonical form, filling, and the
sum of a channel's slots (spec/42_average.md R93). -/

namespace Sys2Proof.Machine

@[simp] theorem Memory.read_nil (a : Nat) : Memory.read [] a = 0#12 := rfl

/-- Below the first key of a rising list nothing is listed. -/
theorem Memory.read_eq_zero_of_lt (m : Memory) (a : Nat) (h : ∀ e ∈ m, a < e.1) : Memory.read m a = 0#12 := by
  induction m with
  | nil => rfl
  | cons e m ih =>
    have := h e (by simp)
    rw [Memory.read, if_neg (by omega)]
    exact ih fun e' he' => h e' (by simp [he'])

/-- Read after write (R31): the written slot holds the value, every other slot what it held. -/
theorem Memory.read_write (m : Memory) (hm : Memory.wf m) (a b : Nat) (v : Sample) :
    Memory.read (Memory.write m a v) b = if b = a then v else Memory.read m b := by
  induction m with
  | nil =>
    by_cases hv : v = 0#12 <;> by_cases hab : b = a <;> simp [Memory.write, Memory.read, hv, hab]
    exact fun h => absurd h.symm hab
  | cons e m ih =>
    obtain ⟨k, w⟩ := e
    obtain ⟨hm, hz⟩ := hm
    obtain ⟨hlt, hp⟩ := List.pairwise_cons.1 hm
    have ih := ih ⟨hp, fun e he => hz e (by simp [he])⟩
    have hz0 : ∀ x, x ≤ k → Memory.read m x = 0#12 := fun x hx =>
      Memory.read_eq_zero_of_lt m x fun e he => by have := hlt e he; simp only at this; omega
    rw [Memory.write]
    by_cases h1 : a < k
    · rw [if_pos h1]
      by_cases hv : v = 0#12
      · rw [if_pos hv]
        by_cases hab : b = a
        · rw [if_pos hab, Memory.read, if_neg (by omega), hz0 b (by omega), hv]
        · rw [if_neg hab]
      · rw [if_neg hv, Memory.read]
        by_cases hab : b = a
        · rw [if_pos hab, if_pos hab.symm]
        · rw [if_neg hab, if_neg (fun h => hab h.symm)]
    · rw [if_neg h1]
      by_cases h2 : a = k
      · subst h2
        rw [if_pos rfl]
        by_cases hv : v = 0#12
        · rw [if_pos hv]
          by_cases hab : b = a
          · rw [if_pos hab, hz0 b (by omega), hv]
          · rw [if_neg hab, Memory.read, if_neg (fun h => hab h.symm)]
        · rw [if_neg hv, Memory.read]
          by_cases hab : b = a
          · rw [if_pos hab, if_pos hab.symm]
          · rw [if_neg hab, if_neg (fun h => hab h.symm), Memory.read, if_neg (fun h => hab h.symm)]
      · rw [if_neg h2, Memory.read, Memory.read, ih]
        by_cases hkb : k = b
        · rw [if_pos hkb, if_pos hkb, if_neg (by omega)]
        · rw [if_neg hkb, if_neg hkb]

/-- Every key of a memory after a write was there before or is the one written. -/
theorem Memory.mem_write_key (m : Memory) (a : Nat) (v : Sample) (e : Nat × Sample) (he : e ∈ Memory.write m a v) :
    e ∈ m ∨ (e = (a, v) ∧ v ≠ 0#12) := by
  induction m with
  | nil =>
    by_cases hv : v = 0#12 <;> simp [Memory.write, hv] at he
    exact .inr ⟨he, hv⟩
  | cons x m ih =>
    obtain ⟨k, w⟩ := x
    rw [Memory.write] at he
    split at he
    · split at he
      · exact .inl he
      · rcases List.mem_cons.1 he with h | h
        · exact .inr ⟨h, ‹_›⟩
        · exact .inl h
    · split at he
      · split at he
        · exact .inl (List.mem_cons_of_mem _ he)
        · rcases List.mem_cons.1 he with h | h
          · exact .inr ⟨h, ‹_›⟩
          · exact .inl (List.mem_cons_of_mem _ h)
      · rcases List.mem_cons.1 he with h | h
        · exact .inl (by simp [h])
        · rcases ih h with h | h
          · exact .inl (List.mem_cons_of_mem _ h)
          · exact .inr h

/-- A write keeps the canonical form. -/
theorem Memory.write_wf (m : Memory) (hm : Memory.wf m) (a : Nat) (v : Sample) : Memory.wf (Memory.write m a v) := by
  induction m with
  | nil => by_cases hv : v = 0#12 <;> simp [Memory.write, Memory.wf, hv]
  | cons x m ih =>
    obtain ⟨k, w⟩ := x
    obtain ⟨hm, hz⟩ := hm
    obtain ⟨hlt, hp⟩ := List.pairwise_cons.1 hm
    have htail : Memory.wf m := ⟨hp, fun e he => hz e (by simp [he])⟩
    have ih := ih htail
    rw [Memory.write]
    by_cases h1 : a < k
    · rw [if_pos h1]
      by_cases hv : v = 0#12
      · rw [if_pos hv]
        exact ⟨List.pairwise_cons.2 ⟨hlt, hp⟩, hz⟩
      · rw [if_neg hv]
        refine ⟨List.pairwise_cons.2 ⟨?_, List.pairwise_cons.2 ⟨hlt, hp⟩⟩, ?_⟩
        · intro e he
          rcases List.mem_cons.1 he with rfl | he
          · exact h1
          · exact lt_trans h1 (hlt e he)
        · intro e he
          rcases List.mem_cons.1 he with rfl | he
          · exact hv
          · exact hz e he
    · rw [if_neg h1]
      by_cases h2 : a = k
      · subst h2
        rw [if_pos rfl]
        by_cases hv : v = 0#12
        · rw [if_pos hv]
          exact htail
        · rw [if_neg hv]
          refine ⟨List.pairwise_cons.2 ⟨hlt, htail.1⟩, ?_⟩
          intro e he
          rcases List.mem_cons.1 he with rfl | he
          · exact hv
          · exact hz e (by simp [he])
      · rw [if_neg h2]
        refine ⟨List.pairwise_cons.2 ⟨?_, ih.1⟩, ?_⟩
        · intro e he
          rcases Memory.mem_write_key m a v e he with h | h
          · exact hlt e h
          · simp only [h.1]
            omega
        · intro e he
          rcases List.mem_cons.1 he with rfl | he
          · exact hz _ (by simp)
          · exact ih.2 e he

/-- Filling keeps the canonical form. -/
theorem Memory.fill_wf (f : Nat → Sample) (ks : List Nat) (m : Memory) (hm : Memory.wf m) :
    Memory.wf (Memory.fill f ks m) := by
  induction ks generalizing m with
  | nil => exact hm
  | cons k ks ih => exact ih _ (Memory.write_wf m hm k (f k))

/-- Read after filling: a filled slot holds its value, every other slot what it held. -/
theorem Memory.read_fill (f : Nat → Sample) (ks : List Nat) (m : Memory) (hm : Memory.wf m) (a : Nat) :
    Memory.read (Memory.fill f ks m) a = if a ∈ ks then f a else Memory.read m a := by
  induction ks generalizing m with
  | nil => simp [Memory.fill]
  | cons k ks ih =>
    rw [Memory.fill, ih _ (Memory.write_wf m hm k (f k)), Memory.read_write m hm]
    by_cases h : a ∈ ks
    · simp [h]
    · by_cases hk : a = k <;> simp [h, hk]

/-- Slots of different channels have different keys, and so have different slots of one channel. -/
theorem slotKey_inj (c d : Chan) (i j : Nat) (hi : i < 128) (hj : j < 128) (h : slotKey c i = slotKey d j) :
    c = d ∧ i = j := by
  simp only [slotKey] at h
  exact ⟨Fin.ext (by omega), by omega⟩

/-- The keys of the configuration are those of the slots `(c, i)` with `c < N`, `i < K` (R30). -/
theorem mem_slotKeys (cfg : Config) (a : Nat) :
    a ∈ slotKeys cfg ↔ ∃ (c : Chan) (i : Nat), c.val < cfg.n ∧ i < cfg.k ∧ a = slotKey c i := by
  simp only [slotKeys, List.mem_flatMap]
  constructor
  · rintro ⟨c, -, h⟩
    split at h
    · obtain ⟨i, hi, rfl⟩ := List.mem_map.1 h
      exact ⟨c, i, ‹_›, List.mem_range.1 hi, rfl⟩
    · simp at h
  · rintro ⟨c, i, hc, hi, rfl⟩
    refine ⟨c, (by decide : ∀ c : Chan, c ∈ allChans) c, ?_⟩
    rw [if_pos hc]
    exact List.mem_map.2 ⟨i, List.mem_range.2 hi, rfl⟩

/-- Two memories that read alike on a channel's slots have the same sum there. -/
theorem Memory.sum_congr (m m' : Memory) (c : Chan) (k : Nat)
    (h : ∀ i, i < k → Memory.read m (slotKey c i) = Memory.read m' (slotKey c i)) :
    Memory.sum m c k = Memory.sum m' c k := by
  unfold Memory.sum
  congr 1
  exact List.map_congr_left fun i hi => by rw [h i (List.mem_range.1 hi)]

theorem Memory.sum_succ (m : Memory) (c : Chan) (k : Nat) :
    Memory.sum m c (k + 1) = Memory.sum m c k + (Memory.read m (slotKey c k)).toNat := by
  simp [Memory.sum, List.range_succ]

/-- The sum of `k` slots is at most `k * 4095` (R94). -/
theorem Memory.sum_le (m : Memory) (c : Chan) (k : Nat) : Memory.sum m c k ≤ k * 4095 := by
  induction k with
  | zero => simp [Memory.sum]
  | succ k ih =>
    have := (Memory.read m (slotKey c k)).isLt
    rw [Memory.sum_succ]
    omega

/-- A summed slot is a summand. -/
theorem Memory.read_le_sum (m : Memory) (c : Chan) (k i : Nat) (hi : i < k) :
    (Memory.read m (slotKey c i)).toNat ≤ Memory.sum m c k := by
  induction k with
  | zero => omega
  | succ k ih =>
    rw [Memory.sum_succ]
    by_cases h : i = k
    · subst h; omega
    · have := ih (by omega); omega

/-- Overwriting one summed slot changes the sum by the difference (R93). -/
theorem Memory.sum_write (m : Memory) (hm : Memory.wf m) (c : Chan) (k i : Nat) (v : Sample) (hi : i < k) :
    Memory.sum (Memory.write m (slotKey c i) v) c k + (Memory.read m (slotKey c i)).toNat =
      Memory.sum m c k + v.toNat := by
  have hr := Memory.read_write m hm (slotKey c i)
  induction k with
  | zero => omega
  | succ k ih =>
    rw [Memory.sum_succ, Memory.sum_succ]
    by_cases h : i = k
    · subst h
      have : Memory.sum (Memory.write m (slotKey c i) v) c i = Memory.sum m c i :=
        Memory.sum_congr _ _ c i fun j hj => by
          rw [hr, if_neg]
          simp only [slotKey]
          omega
      rw [this, hr, if_pos rfl]
      omega
    · have := ih (by omega)
      rw [hr (slotKey c k) v, if_neg (by simp only [slotKey]; omega)]
      omega

/-- The sum of another channel's slots does not see the write. -/
theorem Memory.sum_write_other (m : Memory) (hm : Memory.wf m) (c d : Chan) (k i : Nat) (v : Sample) (hi : i < 128)
    (hk : k ≤ 128) (hcd : d ≠ c) : Memory.sum (Memory.write m (slotKey c i) v) d k = Memory.sum m d k :=
  Memory.sum_congr _ _ d k fun j hj => by
    rw [Memory.read_write m hm, if_neg fun h => hcd (slotKey_inj d c j i (by omega) hi h).1]

end Sys2Proof.Machine
end

