-- ==== Sys2Proof/Laws/State.lean ====
section
/-! SUPPORT. One lemma per field of `State` per named update, true by `rfl`: what the update makes of the field. -/

namespace Sys2Proof.Machine

variable (s : State)

@[simp] theorem State.setRecord_cfg (c : Chan) (r : ChannelRecord) : (s.setRecord c r).cfg = s.cfg := rfl
@[simp] theorem State.setRecord_recs (c : Chan) (r : ChannelRecord) : (s.setRecord c r).recs = s.recs.set c r := rfl
@[simp] theorem State.setRecord_mem (c : Chan) (r : ChannelRecord) : (s.setRecord c r).mem = s.mem := rfl
@[simp] theorem State.setRecord_cntRead (c : Chan) (r : ChannelRecord) : (s.setRecord c r).cntRead = s.cntRead := rfl
@[simp] theorem State.setRecord_cntInvalid (c : Chan) (r : ChannelRecord) : (s.setRecord c r).cntInvalid = s.cntInvalid := rfl
@[simp] theorem State.setRecord_cntRderr (c : Chan) (r : ChannelRecord) : (s.setRecord c r).cntRderr = s.cntRderr := rfl
@[simp] theorem State.setRecord_cntTimeout (c : Chan) (r : ChannelRecord) : (s.setRecord c r).cntTimeout = s.cntTimeout := rfl
@[simp] theorem State.setRecord_eng (c : Chan) (r : ChannelRecord) : (s.setRecord c r).eng = s.eng := rfl
@[simp] theorem State.setRecord_notify (c : Chan) (r : ChannelRecord) : (s.setRecord c r).notify = s.notify := rfl
@[simp] theorem State.setRecord_remain (c : Chan) (r : ChannelRecord) : (s.setRecord c r).remain = s.remain := rfl
@[simp] theorem State.setRecord_lockHeld (c : Chan) (r : ChannelRecord) : (s.setRecord c r).lockHeld = s.lockHeld := rfl
@[simp] theorem State.setRecord_schedule (c : Chan) (r : ChannelRecord) : (s.setRecord c r).schedule = s.schedule := rfl
@[simp] theorem State.setRecord_draws (c : Chan) (r : ChannelRecord) : (s.setRecord c r).draws = s.draws := rfl
@[simp] theorem State.setRecord_rPort (c : Chan) (r : ChannelRecord) : (s.setRecord c r).rPort = s.rPort := rfl
@[simp] theorem State.setRecord_pPort (c : Chan) (r : ChannelRecord) : (s.setRecord c r).pPort = s.pPort := rfl
@[simp] theorem State.setRecord_epoch (c : Chan) (r : ChannelRecord) : (s.setRecord c r).epoch = s.epoch := rfl

@[simp] theorem State.countRead_cfg : (s.countRead).cfg = s.cfg := rfl
@[simp] theorem State.countRead_recs : (s.countRead).recs = s.recs := rfl
@[simp] theorem State.countRead_mem : (s.countRead).mem = s.mem := rfl
@[simp] theorem State.countRead_cntRead : (s.countRead).cntRead = satInc s.cntRead := rfl
@[simp] theorem State.countRead_cntInvalid : (s.countRead).cntInvalid = s.cntInvalid := rfl
@[simp] theorem State.countRead_cntRderr : (s.countRead).cntRderr = s.cntRderr := rfl
@[simp] theorem State.countRead_cntTimeout : (s.countRead).cntTimeout = s.cntTimeout := rfl
@[simp] theorem State.countRead_eng : (s.countRead).eng = s.eng := rfl
@[simp] theorem State.countRead_notify : (s.countRead).notify = s.notify := rfl
@[simp] theorem State.countRead_remain : (s.countRead).remain = s.remain := rfl
@[simp] theorem State.countRead_lockHeld : (s.countRead).lockHeld = s.lockHeld := rfl
@[simp] theorem State.countRead_schedule : (s.countRead).schedule = s.schedule := rfl
@[simp] theorem State.countRead_draws : (s.countRead).draws = s.draws := rfl
@[simp] theorem State.countRead_rPort : (s.countRead).rPort = s.rPort := rfl
@[simp] theorem State.countRead_pPort : (s.countRead).pPort = s.pPort := rfl
@[simp] theorem State.countRead_epoch : (s.countRead).epoch = s.epoch := rfl

@[simp] theorem State.countInvalid_cfg : (s.countInvalid).cfg = s.cfg := rfl
@[simp] theorem State.countInvalid_recs : (s.countInvalid).recs = s.recs := rfl
@[simp] theorem State.countInvalid_mem : (s.countInvalid).mem = s.mem := rfl
@[simp] theorem State.countInvalid_cntRead : (s.countInvalid).cntRead = s.cntRead := rfl
@[simp] theorem State.countInvalid_cntInvalid : (s.countInvalid).cntInvalid = satInc s.cntInvalid := rfl
@[simp] theorem State.countInvalid_cntRderr : (s.countInvalid).cntRderr = s.cntRderr := rfl
@[simp] theorem State.countInvalid_cntTimeout : (s.countInvalid).cntTimeout = s.cntTimeout := rfl
@[simp] theorem State.countInvalid_eng : (s.countInvalid).eng = s.eng := rfl
@[simp] theorem State.countInvalid_notify : (s.countInvalid).notify = s.notify := rfl
@[simp] theorem State.countInvalid_remain : (s.countInvalid).remain = s.remain := rfl
@[simp] theorem State.countInvalid_lockHeld : (s.countInvalid).lockHeld = s.lockHeld := rfl
@[simp] theorem State.countInvalid_schedule : (s.countInvalid).schedule = s.schedule := rfl
@[simp] theorem State.countInvalid_draws : (s.countInvalid).draws = s.draws := rfl
@[simp] theorem State.countInvalid_rPort : (s.countInvalid).rPort = s.rPort := rfl
@[simp] theorem State.countInvalid_pPort : (s.countInvalid).pPort = s.pPort := rfl
@[simp] theorem State.countInvalid_epoch : (s.countInvalid).epoch = s.epoch := rfl

@[simp] theorem State.countRderr_cfg : (s.countRderr).cfg = s.cfg := rfl
@[simp] theorem State.countRderr_recs : (s.countRderr).recs = s.recs := rfl
@[simp] theorem State.countRderr_mem : (s.countRderr).mem = s.mem := rfl
@[simp] theorem State.countRderr_cntRead : (s.countRderr).cntRead = s.cntRead := rfl
@[simp] theorem State.countRderr_cntInvalid : (s.countRderr).cntInvalid = s.cntInvalid := rfl
@[simp] theorem State.countRderr_cntRderr : (s.countRderr).cntRderr = satInc s.cntRderr := rfl
@[simp] theorem State.countRderr_cntTimeout : (s.countRderr).cntTimeout = s.cntTimeout := rfl
@[simp] theorem State.countRderr_eng : (s.countRderr).eng = s.eng := rfl
@[simp] theorem State.countRderr_notify : (s.countRderr).notify = s.notify := rfl
@[simp] theorem State.countRderr_remain : (s.countRderr).remain = s.remain := rfl
@[simp] theorem State.countRderr_lockHeld : (s.countRderr).lockHeld = s.lockHeld := rfl
@[simp] theorem State.countRderr_schedule : (s.countRderr).schedule = s.schedule := rfl
@[simp] theorem State.countRderr_draws : (s.countRderr).draws = s.draws := rfl
@[simp] theorem State.countRderr_rPort : (s.countRderr).rPort = s.rPort := rfl
@[simp] theorem State.countRderr_pPort : (s.countRderr).pPort = s.pPort := rfl
@[simp] theorem State.countRderr_epoch : (s.countRderr).epoch = s.epoch := rfl

@[simp] theorem State.countTimeout_cfg : (s.countTimeout).cfg = s.cfg := rfl
@[simp] theorem State.countTimeout_recs : (s.countTimeout).recs = s.recs := rfl
@[simp] theorem State.countTimeout_mem : (s.countTimeout).mem = s.mem := rfl
@[simp] theorem State.countTimeout_cntRead : (s.countTimeout).cntRead = s.cntRead := rfl
@[simp] theorem State.countTimeout_cntInvalid : (s.countTimeout).cntInvalid = s.cntInvalid := rfl
@[simp] theorem State.countTimeout_cntRderr : (s.countTimeout).cntRderr = s.cntRderr := rfl
@[simp] theorem State.countTimeout_cntTimeout : (s.countTimeout).cntTimeout = satInc s.cntTimeout := rfl
@[simp] theorem State.countTimeout_eng : (s.countTimeout).eng = s.eng := rfl
@[simp] theorem State.countTimeout_notify : (s.countTimeout).notify = s.notify := rfl
@[simp] theorem State.countTimeout_remain : (s.countTimeout).remain = s.remain := rfl
@[simp] theorem State.countTimeout_lockHeld : (s.countTimeout).lockHeld = s.lockHeld := rfl
@[simp] theorem State.countTimeout_schedule : (s.countTimeout).schedule = s.schedule := rfl
@[simp] theorem State.countTimeout_draws : (s.countTimeout).draws = s.draws := rfl
@[simp] theorem State.countTimeout_rPort : (s.countTimeout).rPort = s.rPort := rfl
@[simp] theorem State.countTimeout_pPort : (s.countTimeout).pPort = s.pPort := rfl
@[simp] theorem State.countTimeout_epoch : (s.countTimeout).epoch = s.epoch := rfl

@[simp] theorem State.respond_cfg (st : Status) (data : BitVec 32) : (s.respond st data).cfg = s.cfg := rfl
@[simp] theorem State.respond_recs (st : Status) (data : BitVec 32) : (s.respond st data).recs = s.recs := rfl
@[simp] theorem State.respond_mem (st : Status) (data : BitVec 32) : (s.respond st data).mem = s.mem := rfl
@[simp] theorem State.respond_cntRead (st : Status) (data : BitVec 32) : (s.respond st data).cntRead = s.cntRead := rfl
@[simp] theorem State.respond_cntInvalid (st : Status) (data : BitVec 32) : (s.respond st data).cntInvalid = s.cntInvalid := rfl
@[simp] theorem State.respond_cntRderr (st : Status) (data : BitVec 32) : (s.respond st data).cntRderr = s.cntRderr := rfl
@[simp] theorem State.respond_cntTimeout (st : Status) (data : BitVec 32) : (s.respond st data).cntTimeout = s.cntTimeout := rfl
@[simp] theorem State.respond_eng (st : Status) (data : BitVec 32) : (s.respond st data).eng = s.eng := rfl
@[simp] theorem State.respond_notify (st : Status) (data : BitVec 32) : (s.respond st data).notify = s.notify := rfl
@[simp] theorem State.respond_remain (st : Status) (data : BitVec 32) : (s.respond st data).remain = s.remain := rfl
@[simp] theorem State.respond_lockHeld (st : Status) (data : BitVec 32) : (s.respond st data).lockHeld = s.lockHeld := rfl
@[simp] theorem State.respond_schedule (st : Status) (data : BitVec 32) : (s.respond st data).schedule = s.schedule := rfl
@[simp] theorem State.respond_draws (st : Status) (data : BitVec 32) : (s.respond st data).draws = s.draws := rfl
@[simp] theorem State.respond_rPort (st : Status) (data : BitVec 32) : (s.respond st data).rPort = s.rPort ++ [responseWord st data] := rfl
@[simp] theorem State.respond_pPort (st : Status) (data : BitVec 32) : (s.respond st data).pPort = s.pPort := rfl
@[simp] theorem State.respond_epoch (st : Status) (data : BitVec 32) : (s.respond st data).epoch = s.epoch := rfl

@[simp] theorem State.emitSave_cfg (c : Chan) : (s.emitSave c).cfg = s.cfg := rfl
@[simp] theorem State.emitSave_recs (c : Chan) : (s.emitSave c).recs = s.recs := rfl
@[simp] theorem State.emitSave_mem (c : Chan) : (s.emitSave c).mem = s.mem := rfl
@[simp] theorem State.emitSave_cntRead (c : Chan) : (s.emitSave c).cntRead = s.cntRead := rfl
@[simp] theorem State.emitSave_cntInvalid (c : Chan) : (s.emitSave c).cntInvalid = s.cntInvalid := rfl
@[simp] theorem State.emitSave_cntRderr (c : Chan) : (s.emitSave c).cntRderr = s.cntRderr := rfl
@[simp] theorem State.emitSave_cntTimeout (c : Chan) : (s.emitSave c).cntTimeout = s.cntTimeout := rfl
@[simp] theorem State.emitSave_eng (c : Chan) : (s.emitSave c).eng = s.eng := rfl
@[simp] theorem State.emitSave_notify (c : Chan) : (s.emitSave c).notify = s.notify := rfl
@[simp] theorem State.emitSave_remain (c : Chan) : (s.emitSave c).remain = s.remain := rfl
@[simp] theorem State.emitSave_lockHeld (c : Chan) : (s.emitSave c).lockHeld = s.lockHeld := rfl
@[simp] theorem State.emitSave_schedule (c : Chan) : (s.emitSave c).schedule = s.schedule := rfl
@[simp] theorem State.emitSave_draws (c : Chan) : (s.emitSave c).draws = s.draws := rfl
@[simp] theorem State.emitSave_rPort (c : Chan) : (s.emitSave c).rPort = s.rPort := rfl
@[simp] theorem State.emitSave_pPort (c : Chan) : (s.emitSave c).pPort = s.pPort ++ [saveWord c (s.record c)] := rfl
@[simp] theorem State.emitSave_epoch (c : Chan) : (s.emitSave c).epoch = s.epoch := rfl


end Sys2Proof.Machine
end

