-- ==== Sys2Proof/Laws/Ops.lean ====
section
/-! SUPPORT. What each shared operation does, said once: records, lock, the accessor prologue, the latch, the end of a
sample, START's initialisation and the reset input. Later proofs cite these instead of unfolding the operations. -/

namespace Sys2Proof.Machine

/-! ## Records -/

@[simp] theorem State.record_setRecord_self (s : State) (c : Chan) (r : ChannelRecord) :
    (s.setRecord c r).record c = r := by simp [State.record, State.setRecord]

theorem State.record_setRecord_ne (s : State) (c d : Chan) (r : ChannelRecord) (h : d ≠ c) :
    (s.setRecord c r).record d = s.record d := by
  have h' : c.val ≠ d.val := fun e => h (Fin.ext e.symm)
  simp [State.record, State.setRecord, h']

/-- `record` reads `recs` and nothing else. -/
theorem State.record_eq_of_recs (s t : State) (c : Chan) (h : t.recs = s.recs) : t.record c = s.record c := by
  simp [State.record, h]

/-- Records that agree everywhere are one vector. -/
theorem State.recs_ext (s t : State) (h : ∀ c, s.record c = t.record c) : s.recs = t.recs := by
  apply Vector.ext
  intro i hi
  exact h ⟨i, hi⟩

/-! ## Lock -/

/-- Work under the lock that does not look at the lock leaves it free and is otherwise as without it (R22). -/
theorem State.locked_id (s : State) : s.locked id = { s with lockHeld := false } := rfl

@[simp] theorem State.locked_lockHeld (s : State) (f : State → State) : (s.locked f).lockHeld = false := rfl

/-! ## The channel index (R111) and the lookup (R71) -/

/-- A channel field below `N` names the channel of that index. -/
theorem channelOf_eq_some (cfg : Config) (ch : BitVec 3) (c : Chan) (h : ch.toNat = c.val) (hc : c.val < cfg.n) :
    channelOf cfg ch = some c := by
  simp [channelOf, h, hc]

/-- A channel field at or above `N` names none. -/
theorem channelOf_eq_none (cfg : Config) (ch : BitVec 3) (h : cfg.n ≤ ch.toNat) : channelOf cfg ch = none := by
  unfold channelOf
  split
  · rw [if_neg (by omega)]
  · rfl

/-- What naming a channel says. -/
theorem channelOf_some (cfg : Config) (ch : BitVec 3) (c : Chan) (h : channelOf cfg ch = some c) :
    c.val = ch.toNat ∧ c.val < cfg.n := by
  unfold channelOf at h
  split at h
  · split at h
    · obtain rfl := Option.some.inj h
      exact ⟨rfl, ‹_›⟩
    · cases h
  · cases h

/-- A found channel has the identifier looked up, and is one of the configuration's. -/
theorem lookup_some (cfg : Config) (pid : Pid) (c : Chan) (h : lookup cfg pid = some c) :
    cfg.channels[c.val]?.map ChannelConfig.physId = some pid ∧ c.val < cfg.n := by
  have h1 := List.find?_some h
  simp only [decide_eq_true_eq] at h1
  refine ⟨h1, ?_⟩
  obtain ⟨ch, h2, -⟩ := Option.map_eq_some_iff.1 h1
  exact (List.getElem?_eq_some_iff.1 h2).1

/-! ## The accessor prologue (R98) -/

/-- The four ways an accessor operation can end. -/
theorem access_cases (s : State) (ch : BitVec 3) (valid : Bool) (body : Chan → State → State) :
    ((s.cfg.n ≤ ch.toNat ∨ 6 ≤ ch.toNat ∨ valid = false) ∧ access s ch valid body = s.respond .invalid 0#32) ∨
    (s.eng = .stopped ∧ access s ch valid body = s.respond .notStarted 0#32) ∨
    (s.draws.grant = false ∧ access s ch valid body = s.respond .busy 0#32) ∨
    (∃ c : Chan, ch.toNat = c.val ∧ c.val < s.cfg.n ∧ valid = true ∧ s.eng ≠ .stopped ∧ s.draws.grant = true ∧
      access s ch valid body = body c s) := by
  unfold access
  cases hc : channelOf s.cfg ch with
  | none =>
    refine .inl ⟨?_, rfl⟩
    by_contra h
    simp only [not_or, not_le] at h
    rw [channelOf_eq_some s.cfg ch ⟨ch.toNat, h.2.1⟩ rfl h.1] at hc
    cases hc
  | some c =>
    obtain ⟨h1, h2⟩ := channelOf_some _ _ _ hc
    cases valid with
    | false => exact .inl ⟨.inr (.inr rfl), rfl⟩
    | true =>
      by_cases hs : s.eng = .stopped
      · exact .inr (.inl ⟨hs, by simp [hs]⟩)
      · cases hg : s.draws.grant with
        | false => exact .inr (.inr (.inl ⟨rfl, by simp [hs]⟩))
        | true => exact .inr (.inr (.inr ⟨c, h1.symm, h2, rfl, hs, rfl, by simp [hs]⟩))

/-- A channel below `N`, valid operands, a started block and a granted lock: the body runs. -/
theorem access_granted (s : State) (ch : BitVec 3) (c : Chan) (body : Chan → State → State) (h : ch.toNat = c.val)
    (hc : c.val < s.cfg.n) (hs : s.eng ≠ .stopped) (hg : s.draws.grant = true) :
    access s ch true body = body c s := by
  simp [access, channelOf_eq_some s.cfg ch c h hc, hs, hg]

/-- Reading a field leaves everything but the lock, which is free, and the answer. -/
theorem readField_eq (field : ChannelRecord → BitVec 32) (c : Chan) (s : State) :
    readField field c s = { s with lockHeld := false, rPort := s.rPort ++ [responseWord .ok (field (s.record c))] } :=
  rfl

/-- A record write: the record, the save word of the record as updated, the answer; the lock free. -/
theorem writeRecord_eq (update : ChannelRecord → ChannelRecord) (c : Chan) (s : State) :
    writeRecord update c s =
      { s with
        lockHeld := false
        recs := s.recs.set c (update (s.record c))
        pPort := s.pPort ++ [saveWord c (update (s.record c))]
        rPort := s.rPort ++ [responseWord (if s.draws.persistOk then .ok else .persistFail) 0#32] } := by
  have h : ((s.locked fun t => t.setRecord c (update (t.record c))).record c) = update (s.record c) := by
    simp [State.locked, State.record, State.setRecord]
  simp only [writeRecord, State.emitSave, State.respond, h]
  rfl

/-! ## The latch (R72) -/

/-- The record a latch gives its channel. -/
theorem State.latch_record_self (s : State) (c : Chan) (x : Sample) :
    (s.latch c x).record c =
      { s.record c with
        raw := x
        wmin := BitVec.ofNat 13 ((s.record c).hyst x).wmin
        wmax := BitVec.ofNat 13 ((s.record c).hyst x).wmax
        cur := BitVec.ofNat 7 (((s.record c).cur.toNat + 1) % s.cfg.k)
        acc := BitVec.ofNat 19 ((s.record c).acc.toNat -
          (Memory.read s.mem (slotKey c (s.record c).cur.toNat)).toNat +
          (BitVec.ofNat 12 ((s.record c).hyst x).y).toNat)
        filt := BitVec.ofNat 12 ((BitVec.ofNat 19 ((s.record c).acc.toNat -
          (Memory.read s.mem (slotKey c (s.record c).cur.toNat)).toNat +
          (BitVec.ofNat 12 ((s.record c).hyst x).y).toNat)).toNat / s.cfg.k) } := by
  simp [State.latch, State.record, State.setRecord, average]

/-- A latch touches no other channel's record. -/
theorem State.latch_record_ne (s : State) (c d : Chan) (x : Sample) (h : d ≠ c) :
    (s.latch c x).record d = s.record d := s.record_setRecord_ne c d _ h

/-- A latch writes one slot: the one at the cursor, with the stage output. -/
theorem State.latch_mem (s : State) (c : Chan) (x : Sample) :
    (s.latch c x).mem =
      Memory.write s.mem (slotKey c (s.record c).cur.toNat) (BitVec.ofNat 12 ((s.record c).hyst x).y) := rfl

/-- A latch changes records and slots and nothing else. -/
theorem State.latch_frame (s : State) (c : Chan) (x : Sample) :
    s.latch c x = { s with recs := (s.latch c x).recs, mem := (s.latch c x).mem } := rfl

/-- The latch under the lock is the latch, with the lock free afterwards. -/
theorem State.locked_latch (s : State) (c : Chan) (x : Sample) :
    (s.locked fun t => t.latch c x) = { s.latch c x with lockHeld := false } := rfl

/-! ## START's initialisation (R27) and the reset input (R26) -/

/-- The record a channel has after START. -/
theorem State.initialise_record (s : State) (c : Chan) :
    s.initialise.record c = match s.cfg.channels[c.val]? with
      | some dflt => startRecord dflt s.draws.load[c]
      | none => s.record c := by
  cases h : s.cfg.channels[c.val]? <;> simp [State.initialise, State.record, h]

/-- The reset input keeps the memory's canonical form. -/
theorem State.hardwareReset_mem_wf (s : State) (h : Memory.wf s.mem) : Memory.wf s.hardwareReset.mem :=
  Memory.fill_wf _ _ _ h

/-- START keeps the memory's canonical form. -/
theorem State.initialise_mem_wf (s : State) (h : Memory.wf s.mem) : Memory.wf s.initialise.mem :=
  Memory.fill_wf _ _ _ h

/-- A latch keeps the memory's canonical form. -/
theorem State.latch_mem_wf (s : State) (c : Chan) (x : Sample) (h : Memory.wf s.mem) : Memory.wf (s.latch c x).mem :=
  Memory.write_wf _ h _ _

/-! ## Taking the next entry of the schedule -/

/-- Taking an entry changes the schedule and the presented draws and nothing else. -/
theorem State.nextAction_frame (s : State) :
    s.nextAction.2 = { s with schedule := s.nextAction.2.schedule, draws := s.nextAction.2.draws } := by
  unfold State.nextAction
  split <;> rfl

end Sys2Proof.Machine
end

