-- ==== Sys2Proof/Laws/Exec.lean ====
section
/-! SUPPORT. Everything an operation can do when it answers a next state, said once, and the two parts of an SMP. Later
proofs cite these instead of unfolding `exec`. -/

namespace Sys2Proof

namespace Machine

/-- The saturating increment is the count of one more event (R18). -/
theorem satInc_eq_oneMore (c : BitVec 32) : satInc c = oneMore c := by
  apply BitVec.eq_of_toNat_eq
  have := c.isLt
  unfold satInc oneMore
  split
  · subst_vars; rfl
  · rename_i h
    have : c.toNat ≠ 4294967295 := fun e => h (BitVec.eq_of_toNat_eq e)
    simp [BitVec.toNat_add]
    omega

/-- For a burst that expects a sample, the end of an SMP is the one the claims speak of (R70). -/
theorem State.endSample_eq (s : State) (h : s.remain ≠ 0#8) : s.endSample = afterSample s := by
  have h1 : s.remain.toNat ≠ 0 := fun e => h (BitVec.eq_of_toNat_eq e)
  have := s.remain.isLt
  unfold State.endSample afterSample
  by_cases h2 : s.remain = 1#8
  · simp [h2, State.countRead, satInc_eq_oneMore]
  · have h3 : s.remain.toNat ≠ 1 := fun e => h2 (BitVec.eq_of_toNat_eq e)
    rw [if_neg (by omega), if_neg h2]
    congr 1
    apply BitVec.eq_of_toNat_eq
    simp [BitVec.toNat_sub]
    omega

/-- The two ways an SMP ends, from any state (R70). -/
theorem State.endSample_cases (s : State) :
    (s.remain.toNat ≤ 1 ∧ s.endSample = { s.countRead with remain := 0, eng := .wait }) ∨
    (1 < s.remain.toNat ∧ s.endSample = { s with remain := BitVec.ofNat 8 (s.remain.toNat - 1) }) := by
  unfold State.endSample
  split
  · exact .inl ⟨by omega, rfl⟩
  · exact .inr ⟨by omega, rfl⟩

/-- The three ways a sample is taken (R71 to R73). -/
theorem State.takeSample_cases (s : State) (pid : Pid) (raw : Sample) :
    (lookup s.cfg pid = none ∧ s.takeSample pid raw = s.countInvalid) ∨
    (∃ c, lookup s.cfg pid = some c ∧ s.draws.grant = true ∧
      s.takeSample pid raw = { s.latch c raw with lockHeld := false }) ∨
    (∃ c, lookup s.cfg pid = some c ∧ s.draws.grant = false ∧ s.takeSample pid raw = s) := by
  unfold State.takeSample
  cases lookup s.cfg pid with
  | none => exact .inl ⟨rfl, rfl⟩
  | some c =>
    cases hg : s.draws.grant with
    | true => exact .inr (.inl ⟨c, rfl, rfl, rfl⟩)
    | false => exact .inr (.inr ⟨c, rfl, rfl, rfl⟩)

end Machine

/-- The operations the C-port carries (R54, R56). -/
def Instr.isCommand : Instr → Bool
  | .ntf | .smp _ _ | .drh _ _ | .sReservedKind3 | .wake => false
  | .getRaw _ _ | .getFilt _ _ | .getCal _ _ | .getWidth _ _ | .setCal _ _ _ _ | .setWidth _ _ _ | .getStat _
  | .start | .stop | .cReserved0 | .cReservedA | .cReservedB | .cReservedC | .cReservedD | .cReservedE
  | .cReservedF => true

theorem isCommand_decode_command (w : CWord) : (decode (.command w)).isCommand = true := by
  simp only [decode, decodeCommand]
  split <;> rfl

theorem isCommand_decode_sample (w : SWord) : (decode (.sample w)).isCommand = false := by
  simp only [decode, decodeSample]
  split <;> rfl

namespace Machine

/-- What an operation can do, by the shape of its effect. -/
inductive Effect (i : Instr) (s : State) : State → Prop where
  /-- a word of the S-port is dropped -/
  | drop : (i = .ntf ∨ (∃ st n, i = .drh st n) ∨ (∃ pid raw, i = .smp pid raw) ∨ i = .sReservedKind3) → Effect i s s
  | notified : i = .ntf → s.eng ≠ .stopped → Effect i s { s with notify := true }
  | woken : i = .wake → s.eng = .wait → s.notify = true → Effect i s { s with notify := false, eng := .req }
  | emptyDrain : i = .drh .ok 0#8 → s.eng = .req → Effect i s { s.countRead with eng := .wait }
  | burstBegun (n : BitVec 8) : i = .drh .ok n → n ≠ 0#8 → s.eng = .req → Effect i s { s with remain := n, eng := .burst }
  | drainTimeout (n : BitVec 8) : i = .drh .timeout n → s.eng = .req → Effect i s { s.countTimeout with eng := .wait }
  | drainError (st : DrainStatus) (n : BitVec 8) : i = .drh st n → st = .error ∨ st = .reserved3 → s.eng = .req →
      Effect i s { s.countRderr with eng := .wait }
  | sampled (pid : Pid) (raw : Sample) : i = .smp pid raw → s.eng = .burst →
      Effect i s (s.takeSample pid raw).endSample
  /-- a command answers and does nothing else -/
  | answered (st : Status) (d : BitVec 32) : i.isCommand = true → st ≠ .persistFail → (st = .ok ∨ d = 0#32) →
      Effect i s (s.respond st d)
  /-- a granted read -/
  | readRecord (field : ChannelRecord → BitVec 32) (c : Chan) : i.isCommand = true →
      Effect i s (readField field c s)
  /-- a granted, valid SET_CAL -/
  | calSet (ch : BitVec 3) (wait : BitVec 16) (min max : Bound) (c : Chan) : i = .setCal ch wait min max →
      ch.toNat = c.val → c.val < s.cfg.n → min.toNat < max.toNat → max.toNat ≤ 4096 → s.eng ≠ .stopped →
      s.draws.grant = true →
      Effect i s (writeRecord (fun r =>
        { r with calMin := min, calMax := max, wmin := min, wmax := windowTop min max r.width }) c s)
  /-- a granted, valid SET_WIDTH -/
  | widthSet (ch : BitVec 3) (wait : BitVec 16) (width : BitVec 13) (c : Chan) : i = .setWidth ch wait width →
      ch.toNat = c.val → c.val < s.cfg.n → 1 ≤ width.toNat → width.toNat ≤ 1000 → s.eng ≠ .stopped →
      s.draws.grant = true →
      Effect i s (writeRecord (fun r => { r with width := width.setWidth 10 }) c s)
  | started : i = .start → s.eng = .stopped → s.draws.hwOk = true → Effect i s (s.initialise.respond .ok 0#32)
  | stopped : i = .stop →
      Effect i s ({ s with eng := .stopped, notify := false, remain := 0 }.respond .ok 0#32)

/-- The four ways an accessor operation can end, as effects. -/
theorem access_effect (i : Instr) (s : State) (ch : BitVec 3) (valid : Bool) (body : Chan → State → State)
    (hi : i.isCommand = true)
    (hb : ∀ c : Chan, ch.toNat = c.val → c.val < s.cfg.n → valid = true → s.eng ≠ .stopped → s.draws.grant = true →
      Effect i s (body c s)) : Effect i s (access s ch valid body) := by
  rcases access_cases s ch valid body with ⟨_, h⟩ | ⟨_, h⟩ | ⟨_, h⟩ | ⟨c, h1, h2, h3, h4, h5, h⟩
  · rw [h]; exact .answered _ _ hi (by decide) (.inr rfl)
  · rw [h]; exact .answered _ _ hi (by decide) (.inr rfl)
  · rw [h]; exact .answered _ _ hi (by decide) (.inr rfl)
  · rw [h]; exact hb c h1 h2 h3 h4 h5

/-- Everything an operation can do: if it answers a next state, that state is one of its effects. -/
theorem exec_effect (i : Instr) (s t : State) (h : exec i s = .next t) : Effect i s t := by
  cases i with
  | ntf =>
    simp only [exec, execNtf] at h
    split at h <;> cases h
    · exact .drop (.inl rfl)
    · exact .notified rfl ‹_›
  | smp pid raw =>
    simp only [exec, execSmp] at h
    split at h <;> cases h
    · exact .sampled _ _ rfl ‹_›
    · exact .drop (.inr (.inr (.inl ⟨_, _, rfl⟩)))
  | drh st n =>
    simp only [exec, execDrh] at h
    split at h
    · cases st with
      | ok =>
        simp only at h
        split at h <;> cases h
        · subst_vars; exact .emptyDrain rfl ‹_›
        · exact .burstBegun n rfl ‹_› ‹_›
      | timeout => cases h; exact .drainTimeout n rfl ‹_›
      | error => cases h; exact .drainError _ n rfl (.inl rfl) ‹_›
      | reserved3 => cases h; exact .drainError _ n rfl (.inr rfl) ‹_›
    · cases h; exact .drop (.inr (.inl ⟨_, _, rfl⟩))
  | getRaw ch wait => cases h; exact access_effect _ s ch _ _ rfl fun c _ _ _ _ _ => .readRecord _ c rfl
  | getFilt ch wait => cases h; exact access_effect _ s ch _ _ rfl fun c _ _ _ _ _ => .readRecord _ c rfl
  | getCal ch wait => cases h; exact access_effect _ s ch _ _ rfl fun c _ _ _ _ _ => .readRecord _ c rfl
  | getWidth ch wait => cases h; exact access_effect _ s ch _ _ rfl fun c _ _ _ _ _ => .readRecord _ c rfl
  | setCal ch wait min max =>
    cases h
    refine access_effect _ s ch _ _ rfl fun c h1 h2 h3 h4 h5 => ?_
    simp only [calValid, Bool.and_eq_true, decide_eq_true_eq] at h3
    exact .calSet ch wait min max c rfl h1 h2 h3.1 h3.2 h4 h5
  | setWidth ch wait width =>
    cases h
    refine access_effect _ s ch _ _ rfl fun c h1 h2 h3 h4 h5 => ?_
    simp only [widthValid, Bool.and_eq_true, decide_eq_true_eq] at h3
    exact .widthSet ch wait width c rfl h1 h2 h3.1 h3.2 h4 h5
  | getStat sel =>
    simp only [exec, execGetStat] at h
    split at h <;> cases h <;> first
      | exact .answered _ _ rfl (by decide) (.inl rfl)
      | exact .answered _ _ rfl (by decide) (.inr rfl)
  | start =>
    simp only [exec, execStart] at h
    split at h
    · cases h; exact .answered _ _ rfl (by decide) (.inr rfl)
    · rename_i he
      split at h
      · cases h; exact .answered _ _ rfl (by decide) (.inr rfl)
      · rename_i hh
        cases h
        exact .started rfl (not_not.1 he) (Bool.eq_true_of_not_eq_false hh)
  | stop => cases h; exact .stopped rfl
  | wake =>
    simp only [exec, execWake] at h
    split at h <;> cases h
    exact .woken rfl (‹_ ∧ _›).1 (‹_ ∧ _›).2
  | sReservedKind3 => cases h; exact .drop (.inr (.inr (.inr rfl)))
  | cReserved0 => cases h; exact .answered _ _ rfl (by decide) (.inr rfl)
  | cReservedA => cases h; exact .answered _ _ rfl (by decide) (.inr rfl)
  | cReservedB => cases h; exact .answered _ _ rfl (by decide) (.inr rfl)
  | cReservedC => cases h; exact .answered _ _ rfl (by decide) (.inr rfl)
  | cReservedD => cases h; exact .answered _ _ rfl (by decide) (.inr rfl)
  | cReservedE => cases h; exact .answered _ _ rfl (by decide) (.inr rfl)
  | cReservedF => cases h; exact .answered _ _ rfl (by decide) (.inr rfl)

/-- Only WAKE, when it is not enabled, answers no next state. -/
theorem exec_total (i : Instr) (s : State) (h : i = .wake → s.eng = .wait ∧ s.notify = true) :
    ∃ t, exec i s = .next t := by
  cases i with
  | wake => exact ⟨_, if_pos (h rfl)⟩
  | ntf => simp only [exec, execNtf]; split <;> exact ⟨_, rfl⟩
  | smp pid raw => simp only [exec, execSmp]; split <;> exact ⟨_, rfl⟩
  | drh st n =>
    simp only [exec, execDrh]
    split
    · cases st
      · simp only; split <;> exact ⟨_, rfl⟩
      all_goals exact ⟨_, rfl⟩
    · exact ⟨_, rfl⟩
  | getStat sel => simp only [exec, execGetStat]; split <;> exact ⟨_, rfl⟩
  | start =>
    simp only [exec, execStart]
    split
    · exact ⟨_, rfl⟩
    · split <;> exact ⟨_, rfl⟩
  | _ => exact ⟨_, rfl⟩

end Machine

end Sys2Proof
end

