-- ==== Sys2Proof/Laws/Words.lean ====
section
/-! SUPPORT. Reading a field back from a packed word (spec/30_encoding.md R46 to R52). -/

namespace Sys2Proof

theorem getLsbD_place64 {w : Nat} (v : BitVec w) (lo i : Nat) :
    (place64 v lo).getLsbD i = (decide (i < 64) && decide (lo ≤ i) && v.getLsbD (i - lo)) := by
  by_cases h1 : i < 64 <;> by_cases h2 : lo ≤ i <;> simp [place64, h1, h2]

theorem getLsbD_place32 {w : Nat} (v : BitVec w) (lo i : Nat) :
    (place32 v lo).getLsbD i = (decide (i < 32) && decide (lo ≤ i) && v.getLsbD (i - lo)) := by
  by_cases h1 : i < 32 <;> by_cases h2 : lo ≤ i <;> simp [place32, h1, h2]

section command
variable (op : BitVec 4) (ch : BitVec 3) (wait : BitVec 16) (b a : BitVec 13)

@[simp] theorem opField_commandWord : opField (commandWord op ch wait b a) = op := by
  apply BitVec.eq_of_getLsbD_eq
  intro i hi
  interval_cases i <;> simp [opField, commandWord, place64]

@[simp] theorem chField_commandWord : chField (commandWord op ch wait b a) = ch := by
  apply BitVec.eq_of_getLsbD_eq
  intro i hi
  interval_cases i <;> simp [chField, commandWord, place64]

@[simp] theorem waitField_commandWord : waitField (commandWord op ch wait b a) = wait := by
  apply BitVec.eq_of_getLsbD_eq
  intro i hi
  interval_cases i <;> simp [waitField, commandWord, place64]

@[simp] theorem aField_commandWord : aField (commandWord op ch wait b a) = a := by
  apply BitVec.eq_of_getLsbD_eq
  intro i hi
  interval_cases i <;> simp [aField, commandWord, place64]

@[simp] theorem bField_commandWord : bField (commandWord op ch wait b a) = b := by
  apply BitVec.eq_of_getLsbD_eq
  intro i hi
  interval_cases i <;> simp [bField, commandWord, place64]

@[simp] theorem selField_commandWord : (commandWord op ch wait b a).extractLsb' 0 3 = a.setWidth 3 := by
  apply BitVec.eq_of_getLsbD_eq
  intro i hi
  interval_cases i <;> simp [commandWord, place64]

end command

/-- The kind of an S-port word built from a kind and fields below bit 30. -/
theorem kind_of_fields (kind : BitVec 2) (w : SWord) (h : w.extractLsb' 30 2 = 0#2) :
    (place32 kind 30 ||| w).extractLsb' 30 2 = kind := by
  rw [BitVec.extractLsb'_or, h, BitVec.or_zero]
  apply BitVec.eq_of_getLsbD_eq
  intro i hi
  interval_cases i <;> simp [place32]

@[simp] theorem DrainStatus.ofBits_toBits (st : DrainStatus) : DrainStatus.ofBits st.toBits = st := by
  cases st <;> rfl

namespace Machine

theorem Status.code_le (st : Status) : st.code.toNat ≤ 5 := by cases st <;> decide

end Machine

end Sys2Proof
end

