-- ==== Sys2Proof/Laws/PerInstr.lean ====
section
/-! SUPPORT. The family `TableMatch`, one lemma per constructor: the word the encoder gives an operation selects the row of
spec/opcode_table.json that the operation stands for (spec/30_encoding.md R54). -/

namespace Sys2Proof.Laws.TableMatch

/-- The encoder's word selects the operation's own row. -/
def Statement (i : Instr) : Prop := ∀ p, encode i = some p → ∃ r, i.row = some r ∧ r.selects p = true

/-- A C-port word built by `commandWord` selects the row of its opcode. -/
theorem select_commandWord (op : BitVec 4) (ch : BitVec 3) (wait : BitVec 16) (b a : BitVec 13) :
    commandWord op ch wait b a &&& 0xF000000000000000 = place64 op 60 := by
  apply BitVec.eq_of_getLsbD_eq
  intro i hi
  interval_cases i <;> simp [commandWord, place64]

/-- An S-port word of kind `kind` selects the row of its kind. -/
theorem select_place32 (kind : BitVec 2) (w : SWord) (h : w &&& 0xC0000000 = 0#32) :
    (place32 kind 30 ||| w) &&& 0xC0000000 = place32 kind 30 := by
  rw [show (place32 kind 30 ||| w) &&& 0xC0000000 = place32 kind 30 &&& 0xC0000000 ||| w &&& 0xC0000000 from
    BitVec.and_or_distrib_right .., h, BitVec.or_zero]
  apply BitVec.eq_of_getLsbD_eq
  intro i hi
  interval_cases i <;> simp [place32]

theorem command_selects (op : BitVec 4) (ch : BitVec 3) (wait : BitVec 16) (b a : BitVec 13) (i : Instr)
    (he : encode i = some (.command (commandWord op ch wait b a)))
    (hr : i.row = some (.command 0xF000000000000000 (place64 op 60))) : Statement i := by
  intro p hp
  rw [he] at hp
  cases hp
  exact ⟨_, hr, by simpa [TableRow.selects] using select_commandWord op ch wait b a⟩

theorem sample_selects (kind : BitVec 2) (w : SWord) (i : Instr) (h : w &&& 0xC0000000 = 0#32)
    (he : encode i = some (.sample (place32 kind 30 ||| w)))
    (hr : i.row = some (.sample 0xC0000000 (place32 kind 30))) : Statement i := by
  intro p hp
  rw [he] at hp
  cases hp
  exact ⟨_, hr, by simpa [TableRow.selects] using select_place32 kind w h⟩

theorem ntf : Statement .ntf := sample_selects 0#2 0 _ (by simp) (by simp [encode]) rfl

theorem smp (pid : Pid) (raw : Sample) : Statement (.smp pid raw) :=
  sample_selects 1#2 (place32 pid 20 ||| place32 raw 0) _
    (by apply BitVec.eq_of_getLsbD_eq; intro i hi; interval_cases i <;> simp [place32])
    (by simp [encode, BitVec.or_assoc]) rfl

theorem drh (st : DrainStatus) (n : BitVec 8) : Statement (.drh st n) :=
  sample_selects 2#2 (place32 st.toBits 28 ||| place32 n 0) _
    (by apply BitVec.eq_of_getLsbD_eq; intro i hi; interval_cases i <;> simp [place32])
    (by simp [encode, BitVec.or_assoc]) rfl

theorem sReservedKind3 : Statement .sReservedKind3 := sample_selects 3#2 0 _ (by simp) (by simp [encode]) rfl

theorem getRaw (ch : BitVec 3) (wait : BitVec 16) : Statement (.getRaw ch wait) := command_selects _ _ _ _ _ _ rfl rfl
theorem getFilt (ch : BitVec 3) (wait : BitVec 16) : Statement (.getFilt ch wait) := command_selects _ _ _ _ _ _ rfl rfl
theorem getCal (ch : BitVec 3) (wait : BitVec 16) : Statement (.getCal ch wait) := command_selects _ _ _ _ _ _ rfl rfl
theorem getWidth (ch : BitVec 3) (wait : BitVec 16) : Statement (.getWidth ch wait) :=
  command_selects _ _ _ _ _ _ rfl rfl
theorem setCal (ch : BitVec 3) (wait : BitVec 16) (min max : Bound) : Statement (.setCal ch wait min max) :=
  command_selects _ _ _ _ _ _ rfl rfl
theorem setWidth (ch : BitVec 3) (wait : BitVec 16) (width : BitVec 13) : Statement (.setWidth ch wait width) :=
  command_selects _ _ _ _ _ _ rfl rfl
theorem getStat (sel : BitVec 3) : Statement (.getStat sel) := command_selects _ _ _ _ _ _ rfl rfl
theorem start : Statement .start := command_selects _ _ _ _ _ _ rfl rfl
theorem stop : Statement .stop := command_selects _ _ _ _ _ _ rfl rfl
theorem cReserved0 : Statement .cReserved0 := command_selects _ _ _ _ _ _ rfl rfl
theorem cReservedA : Statement .cReservedA := command_selects _ _ _ _ _ _ rfl rfl
theorem cReservedB : Statement .cReservedB := command_selects _ _ _ _ _ _ rfl rfl
theorem cReservedC : Statement .cReservedC := command_selects _ _ _ _ _ _ rfl rfl
theorem cReservedD : Statement .cReservedD := command_selects _ _ _ _ _ _ rfl rfl
theorem cReservedE : Statement .cReservedE := command_selects _ _ _ _ _ _ rfl rfl
theorem cReservedF : Statement .cReservedF := command_selects _ _ _ _ _ _ rfl rfl

/-- WAKE has no word (R62), so the statement asks nothing of it. -/
theorem wake : Statement .wake := by
  intro p hp
  cases hp

end Sys2Proof.Laws.TableMatch
end

