-- ==== Sys2Proof/Laws/Step.lean ====
section
/-! SUPPORT. What a step can do, said once. -/

namespace Sys2Proof.Machine

/-- If a step answers a next state, the configuration is well-formed and it was an idle step, the reset input, or an
operation run on the state with its entry of the schedule consumed. -/
theorem step_next_cases (s t : State) (h : step s = .next t) :
    s.cfg.wf = true ∧
    ((s.nextAction = (.idle, s) ∧ s.schedule = [] ∧ t = s) ∨
     (∃ u, s.nextAction = (.reset, u) ∧ t = u.hardwareReset) ∨
     (∃ i u, s.nextAction = (.run i, u) ∧ exec i u = .next t)) := by
  unfold step at h
  split at h
  · rename_i hwf
    refine ⟨hwf, ?_⟩
    cases hs : s.schedule with
    | nil =>
      have ha : s.nextAction = (.idle, s) := by simp [State.nextAction, hs]
      rw [ha] at h
      exact .inl ⟨ha, rfl, by cases h; rfl⟩
    | cons e rest =>
      cases e with
      | word p d =>
        have ha : s.nextAction = (.run (decode p), { s with schedule := rest, draws := d }) := by
          simp [State.nextAction, hs]
        rw [ha] at h
        exact .inr (.inr ⟨_, _, ha, h⟩)
      | engineStep =>
        have ha : s.nextAction = (.run .wake, { s with schedule := rest }) := by simp [State.nextAction, hs]
        rw [ha] at h
        exact .inr (.inr ⟨_, _, ha, h⟩)
      | rst =>
        have ha : s.nextAction = (.reset, { s with schedule := rest }) := by simp [State.nextAction, hs]
        rw [ha] at h
        exact .inr (.inl ⟨_, ha, by cases h; rfl⟩)
  · cases h

end Sys2Proof.Machine
end

