-- ==== Sys2Proof/Tests/Slice0.lean ====
section
/-! SUPPORT. Tests on fixed values, each with its expected result from spec/95_test_vectors.md or the rule named, and for
every obligation with hypotheses a witness that meets them together. -/

namespace Sys2Proof.Tests

open Sys2Proof Sys2Proof.Machine

/-! ## States -/

/-- The next state, if there is one. -/
def after (o : Host.Outcome State Fault Refusal) : Option State :=
  match o with
  | .next s => some s
  | _ => none

/-- After reset and a START with the written defaults (L1). -/
def started : State := { State.reset.initialise with rPort := [0#64] }

/-- `ENG` at `e`, the flag and the burst counter as given, records as START leaves them. -/
def at_ (e : Eng) (ntf : Bool) (n : BitVec 8) : State := { started with eng := e, notify := ntf, remain := n }

/-- `REC[0]` after E1. -/
def e1Record : ChannelRecord :=
  { raw := 2000, filt := 200, calMin := 0, calMax := 4095, wmin := 1980, wmax := 2020, width := 40, cur := 1, acc := 2000 }

/-- Started, `REC[0]` as after E1, nothing put out. -/
def e1 : State := { started.setRecord 0 e1Record with mem := [(0, 2000#12)], rPort := [] }

/-- The draws with the lock missed, the store failing, or the hardware failing. -/
def noGrant : Draws := { Draws.written with grant := false }
def noPersist : Draws := { Draws.written with persistOk := false }
def noHw : Draws := { Draws.written with hwOk := false }

/-- Load answers for channels 0 and 1, the others absent. -/
def loads (a b : CWord) : Draws := { Draws.written with load := #v[a, b, 0, 0, 0, 0] }

/-- Presented next on the S-port or the C-port. -/
def sends (s : State) (p : PortWord) : State := { s with schedule := [.word p Draws.written] }

/-- The window of a channel. -/
def window (s : State) (c : Chan) : Nat × Nat := ((s.record c).wmin.toNat, (s.record c).wmax.toNat)

/-! ## Well-formedness: one ill-formed term per check -/

/-- R5: the configuration of the vectors is well-formed, and so are the ends of the ranges of R4. -/
theorem test_wf_good : vectorConfig.wf = true ∧ { vectorConfig with k := 1 }.wf = true ∧
    { vectorConfig with k := 100 }.wf = true ∧
    { vectorConfig with channels := [⟨0, 0, 1, 1⟩, ⟨255, 4095, 4096, 1000⟩] }.wf = true := by decide

theorem test_wf_one_channel : { vectorConfig with channels := [⟨4, 0, 4095, 40⟩] }.wf = false := by decide

theorem test_wf_seven_channels : { vectorConfig with channels := [⟨0, 0, 1, 1⟩, ⟨1, 0, 1, 1⟩, ⟨2, 0, 1, 1⟩, ⟨3, 0, 1, 1⟩,
    ⟨4, 0, 1, 1⟩, ⟨5, 0, 1, 1⟩, ⟨6, 0, 1, 1⟩] }.wf = false := by decide

theorem test_wf_k_zero : { vectorConfig with k := 0 }.wf = false := by decide

theorem test_wf_k_too_large : { vectorConfig with k := 101 }.wf = false := by decide

theorem test_wf_same_identifier :
    { vectorConfig with channels := [⟨4, 0, 4095, 40⟩, ⟨4, 0, 4095, 40⟩] }.wf = false := by decide

theorem test_wf_empty_calibration :
    { vectorConfig with channels := [⟨4, 500, 500, 40⟩, ⟨7, 0, 4095, 40⟩] }.wf = false := by decide

theorem test_wf_calibration_too_large :
    { vectorConfig with channels := [⟨4, 0, 4097, 40⟩, ⟨7, 0, 4095, 40⟩] }.wf = false := by decide

theorem test_wf_width_zero :
    { vectorConfig with channels := [⟨4, 0, 4095, 0⟩, ⟨7, 0, 4095, 40⟩] }.wf = false := by decide

theorem test_wf_width_too_large :
    { vectorConfig with channels := [⟨4, 0, 4095, 40⟩, ⟨7, 0, 4095, 1001⟩] }.wf = false := by decide

/-- R62: no word carries WAKE. -/
theorem test_wf_wake : Instr.wf .wake = false ∧ Instr.wf .ntf = true := by decide

/-! ## Decoding: words written out in 95_test_vectors.md section 2 and 30_encoding.md section 11 -/

theorem test_decode_ntf : decode (.sample 0x00000000#32) = .ntf ∧ decode (.sample 0x3FFFFFFF#32) = .ntf := by decide

theorem test_decode_smp : decode (.sample 0x404007D0#32) = .smp 4 2000 ∧ decode (.sample 0x4FF00FFF#32) = .smp 255 4095 ∧
    decode (.sample 0x704FF7D0#32) = .smp 4 2000 ∧ decode (.sample 0x4090007B#32) = .smp 9 123 := by decide

theorem test_decode_drh : decode (.sample 0x80000003#32) = .drh .ok 3 ∧ decode (.sample 0x90000000#32) = .drh .timeout 0 ∧
    decode (.sample 0xA0000007#32) = .drh .error 7 ∧ decode (.sample 0xB0000000#32) = .drh .reserved3 0 ∧
    decode (.sample 0x800000FF#32) = .drh .ok 255 := by decide

theorem test_decode_kind3 : decode (.sample 0xC0000000#32) = .sReservedKind3 := by decide

theorem test_decode_getRaw : decode (.command 0x1400000A00000000#64) = .getRaw 2 10 ∧
    decode (.command 0x1E00000A00000000#64) = .getRaw 7 10 ∧
    decode (.command 0x1000FFFF00000000#64) = .getRaw 0 65535 := by decide

theorem test_decode_getFilt : decode (.command 0x2200000A00000000#64) = .getFilt 1 10 := by decide

theorem test_decode_getCal : decode (.command 0x3200000500000000#64) = .getCal 1 5 := by decide

theorem test_decode_getWidth : decode (.command 0x4000000A00000000#64) = .getWidth 0 10 := by decide

theorem test_decode_setCal : decode (.command 0x5000000A0BB80064#64) = .setCal 0 10 100 3000 ∧
    decode (.command 0x5200000A10000000#64) = .setCal 1 10 0 4096 ∧
    decode (.command 0x5000000A10010000#64) = .setCal 0 10 0 4097 := by decide

theorem test_decode_setWidth : decode (.command 0x6000000A000003E9#64) = .setWidth 0 10 1001 ∧
    decode (.command 0x6000000A00001FFF#64) = .setWidth 0 10 8191 := by decide

theorem test_decode_getStat : decode (.command 0x7000000000000004#64) = .getStat 4 ∧
    decode (.command 0x7000000000000005#64) = .getStat 5 := by decide

theorem test_decode_lifecycle : decode (.command 0x8000000000000000#64) = .start ∧
    decode (.command 0x9000000000000000#64) = .stop := by decide

/-- R56. -/
theorem test_decode_reserved : decode (.command 0x0000000000000000#64) = .cReserved0 ∧
    decode (.command 0xA000000000000000#64) = .cReservedA ∧ decode (.command 0xB000000000000000#64) = .cReservedB ∧
    decode (.command 0xC000000000000000#64) = .cReservedC ∧ decode (.command 0xD000000000000000#64) = .cReservedD ∧
    decode (.command 0xE000000000000000#64) = .cReservedE ∧ decode (.command 0xF000000000000000#64) = .cReservedF := by
  decide

theorem test_encode : encode (.smp 4 2000) = some (.sample 0x404007D0#32) ∧
    encode (.drh .ok 2) = some (.sample 0x80000002#32) ∧
    encode (.setCal 0 10 100 3000) = some (.command 0x5000000A0BB80064#64) ∧
    encode (.getWidth 1 0) = some (.command 0x4200000000000000#64) := by decide

/-- The numbering of the operation table: 32 bits, 64 bits, none. -/
theorem test_decodeTableWord : decodeTableWord 32 0xA0000007 = some (.drh .error 7) ∧
    decodeTableWord 64 0x6000000A00000064 = some (.setWidth 0 10 100) ∧ decodeTableWord 0 0 = some .wake ∧
    decodeTableWord 16 0 = none := by decide

/-! ## Output and answer words (95_test_vectors.md section 2) -/

theorem test_response_words : responseWord .ok 200 = 0xC8#64 ∧ responseWord .invalid 0 = 0x2000000000000000#64 ∧
    responseWord .busy 0 = 0x4000000000000000#64 ∧ responseWord .persistFail 0 = 0x6000000000000000#64 ∧
    responseWord .startFail 0 = 0x8000000000000000#64 ∧ responseWord .notStarted 0 = 0xA000000000000000#64 := by decide

theorem test_save_words : saveWord 0 { e1Record with calMin := 100, calMax := 3000 } = 0x280BB80064#64 ∧
    saveWord 1 { e1Record with calMax := 4096 } = 0x2000002810000000#64 := by decide

theorem test_load_words : loadAnswer 0x800000140ED800C8#64 = some (200, 3800, 20) ∧
    loadAnswer 0x80000014019001F4#64 = some (500, 400, 20) ∧ loadAnswer 0#64 = none := by decide

/-! ## The filter stages (95_test_vectors.md sections 3 and 4) -/

/-- H1 to H18: `((x, wmin, wmax, width, cmin, cmax), (y, wmin', wmax'))`. -/
theorem test_hyst_first : ∀ v ∈ [
    ((2000, 0, 40, 40, 0, 4095), (2000, 1980, 2020)), ((2010, 1980, 2020, 40, 0, 4095), (2000, 1980, 2020)),
    ((1980, 1980, 2020, 40, 0, 4095), (2000, 1980, 2020)), ((2020, 1980, 2020, 40, 0, 4095), (2000, 1980, 2020)),
    ((2021, 1980, 2020, 40, 0, 4095), (2021, 2001, 2041)), ((1979, 1980, 2020, 40, 0, 4095), (1979, 1959, 1999)),
    ((4095, 1980, 2020, 40, 0, 4095), (4095, 4055, 4095)), ((4095, 1980, 2020, 40, 0, 4096), (4095, 4056, 4096)),
    ((4095, 4056, 4096, 40, 0, 4096), (4076, 4056, 4096)), ((0, 1980, 2020, 40, 0, 4095), (0, 0, 40)),
    ((5, 100, 140, 40, 0, 4095), (5, 0, 40)), ((10, 100, 140, 41, 0, 4095), (10, 0, 41)),
    ((30, 100, 140, 1000, 0, 4095), (30, 0, 1000)), ((500, 0, 40, 1000, 0, 4095), (500, 0, 1000)),
    ((500, 0, 40, 1000, 300, 4095), (500, 0, 1000)), ((3500, 100, 140, 40, 100, 3000), (3500, 2960, 3000)),
    ((3500, 2960, 3000, 40, 100, 3000), (3500, 2960, 3000)), ((50, 100, 140, 40, 100, 3000), (50, 100, 140))],
    hyst v.1.1 v.1.2.1 v.1.2.2.1 v.1.2.2.2.1 v.1.2.2.2.2.1 v.1.2.2.2.2.2 = ⟨v.2.1, v.2.2.1, v.2.2.2⟩ := by decide

/-- H19 to H35. -/
theorem test_hyst_second : ∀ v ∈ [
    ((150, 200, 240, 40, 100, 3000), (150, 130, 170)), ((105, 100, 104, 40, 100, 3000), (105, 85, 125)),
    ((120, 200, 240, 1, 100, 3000), (120, 120, 121)), ((300, 200, 240, 1, 100, 3000), (300, 299, 300)),
    ((2000, 1980, 2021, 40, 0, 4095), (2000, 1980, 2021)), ((2000, 0, 40, 41, 0, 4095), (2000, 1979, 2020)),
    ((2000, 1979, 2020, 41, 0, 4095), (1999, 1979, 2020)), ((2990, 100, 140, 40, 100, 3000), (2990, 2960, 3000)),
    ((20, 0, 40, 40, 0, 4095), (20, 0, 40)), ((41, 0, 40, 40, 0, 4095), (41, 21, 61)),
    ((10, 0, 30, 40, 0, 30), (15, 0, 30)), ((5, 10, 30, 40, 0, 30), (5, 0, 30)),
    ((3500, 100, 140, 100, 100, 3000), (3500, 2900, 3000)), ((50, 2900, 3000, 100, 100, 3000), (50, 100, 200)),
    ((1000, 200, 220, 20, 200, 3800), (1000, 990, 1010)), ((4095, 0, 1, 1, 0, 4096), (4095, 4094, 4095)),
    ((2999, 100, 101, 1, 100, 3000), (2999, 2998, 2999))],
    hyst v.1.1 v.1.2.1 v.1.2.2.1 v.1.2.2.2.1 v.1.2.2.2.2.1 v.1.2.2.2.2.2 = ⟨v.2.1, v.2.2.1, v.2.2.2⟩ := by decide

/-- One call of AVG on channel 0: slots, cursor and sum before, `K`, `y`; memory, cursor, sum and mean after. -/
def avg (k : Nat) (m : Memory) (cur : BitVec 7) (acc : BitVec 19) (y : Sample) :
    Memory × BitVec 7 × BitVec 19 × Sample :=
  let a := average k 0 m { e1Record with cur := cur, acc := acc } y
  (a.1, a.2.cur, a.2.acc, a.2.filt)

/-- A1, A2, A4, A5. -/
theorem test_average : avg 10 [] 0 0 2000 = ([(0, 2000)], 1, 2000, 200) ∧
    avg 10 [(0, 2000)] 1 2000 2000 = ([(0, 2000), (1, 2000)], 2, 4000, 400) ∧
    avg 3 [(0, 1), (1, 2), (2, 3)] 2 6 7 = ([(0, 1), (1, 2), (2, 7)], 0, 10, 3) ∧
    avg 1 [(0, 9)] 0 9 5 = ([(0, 5)], 0, 5, 5) := by decide

/-- A6, A7, A8, A3, and A9's sum. -/
theorem test_average_corners : avg 2 [(0, 4095), (1, 4095)] 0 8190 0 = ([(1, 4095)], 1, 4095, 2047) ∧
    avg 2 [] 1 0 1 = ([(1, 1)], 0, 1, 0) ∧
    avg 2 [(0, 3), (1, 4)] 1 7 3 = ([(0, 3), (1, 3)], 0, 6, 3) ∧
    avg 4 [(0, 4095), (1, 4095), (2, 4095), (3, 4095)] 3 16380 4095 =
      ([(0, 4095), (1, 4095), (2, 4095), (3, 4095)], 0, 16380, 4095) ∧
    (avg 100 [(99, 4095)] 99 409500 4095).2 = (0, 409500, 4095) := by decide

/-! ## One step of each operation (95_test_vectors.md sections 5 to 7) -/

/-- Q1, Q2, Q3, Q16. -/
theorem test_ntf : exec .ntf State.reset = .next State.reset ∧
    exec .ntf (at_ .wait false 0) = .next (at_ .wait true 0) ∧
    exec .ntf (at_ .wait true 0) = .next (at_ .wait true 0) ∧
    exec .ntf (at_ .req false 0) = .next (at_ .req true 0) := ⟨rfl, rfl, rfl, rfl⟩

/-- Q4, Q5. -/
theorem test_wake : exec .wake (at_ .wait true 0) = .next (at_ .req false 0) ∧ (at_ .req false 0).drainReq = true ∧
    exec .wake (at_ .wait false 0) = .fault .wakeNotEnabled := ⟨rfl, rfl, rfl⟩

/-- Q6, Q7, Q18. -/
theorem test_drh_ok : exec (.drh .ok 0) (at_ .req false 0) = .next { at_ .wait false 0 with cntRead := 1 } ∧
    exec (.drh .ok 2) (at_ .req false 0) = .next (at_ .burst false 2) ∧
    exec (.drh .ok 0) { at_ .req false 0 with cntRead := 0xFFFFFFFF } =
      .next { at_ .wait false 0 with cntRead := 0xFFFFFFFF } := ⟨rfl, rfl, rfl⟩

/-- Q8, Q9, Q10, Q11. -/
theorem test_drh_failed : exec (.drh .timeout 0) { at_ .req false 0 with cntTimeout := 4 } =
      .next { at_ .wait false 0 with cntTimeout := 5 } ∧
    exec (.drh .error 7) (at_ .req false 0) = .next { at_ .wait false 0 with cntRderr := 1 } ∧
    exec (.drh .reserved3 0) { at_ .req false 0 with cntRderr := 1 } = .next { at_ .wait false 0 with cntRderr := 2 } ∧
    exec (.drh .ok 2) (at_ .wait false 0) = .next (at_ .wait false 0) := ⟨rfl, rfl, rfl, rfl⟩

/-- Q13 (E1): the whole record, the slots, the burst counter. -/
theorem test_smp_latched : (after (exec (.smp 4 2000) (at_ .burst false 2))).map
    (fun t => (t.record 0, t.mem, t.remain, t.eng)) = some (e1Record, [(0, 2000#12)], 1#8, Eng.burst) := by decide

/-- E2, then Q14 and Q15: an unmatched sample and a missed lock as the last of the burst. -/
theorem test_smp_other : ((after (exec (.smp 4 2010) { e1 with eng := .burst, remain := 2 })).map
      (fun t => ((t.record 0).raw, (t.record 0).filt, window t 0, t.mem)) =
        some (2010#12, 400#12, (1980, 2020), [(0, 2000#12), (1, 2000#12)])) ∧
    exec (.smp 9 123) (at_ .burst false 1) = .next { at_ .wait false 0 with cntInvalid := 1, cntRead := 1 } ∧
    exec (.smp 7 1000) { at_ .burst false 1 with draws := noGrant } =
      .next { at_ .wait false 0 with cntRead := 1, draws := noGrant } := ⟨by decide, rfl, rfl⟩

/-- Q12, Q19. -/
theorem test_dropped : exec (.smp 4 2000) (at_ .wait false 0) = .next (at_ .wait false 0) ∧
    exec .sReservedKind3 (at_ .burst true 2) = .next (at_ .burst true 2) := ⟨rfl, rfl⟩

/-- The response words, the save words, and the window and calibration of channel 0 after a command. -/
def answer (i : Instr) (s : State) : Option (List CWord × List CWord) :=
  (after (exec i s)).map fun t => (t.rPort, t.pPort)

/-- G1, G3, G6, G7. -/
theorem test_getRaw : answer (.getRaw 0 10) e1 = some ([0x7D0], []) ∧ answer (.getRaw 1 10) e1 = some ([0], []) ∧
    answer (.getRaw 0 10) { e1 with draws := noGrant } = some ([0x4000000000000000], []) ∧
    answer (.getRaw 0 0) e1 = some ([0x7D0], []) := by decide

/-- G8, G9, G21, G22 (E3, R98). -/
theorem test_getRaw_checks :
    answer (.getRaw 2 10) { e1 with draws := noGrant } = some ([0x2000000000000000], []) ∧
    answer (.getRaw 7 10) e1 = some ([0x2000000000000000], []) ∧
    answer (.getRaw 0 10) State.reset = some ([0xA000000000000000], []) ∧
    answer (.getRaw 2 10) State.reset = some ([0x2000000000000000], []) := by decide

/-- G2. -/
theorem test_getFilt : answer (.getFilt 0 10) e1 = some ([0xC8], []) := by decide

/-- G4, and (100, 3000). -/
theorem test_getCal : answer (.getCal 0 10) e1 = some ([0x0FFF0000], []) ∧
    answer (.getCal 1 10) (e1.setRecord 1 { e1Record with calMin := 100, calMax := 3000 }) = some ([0x0BB80064], []) := by
  decide

/-- G5. -/
theorem test_getWidth : answer (.getWidth 0 10) e1 = some ([0x28], []) := by decide

/-- G10, G11, G17: answers, save words, and what the record holds. -/
theorem test_setCal : answer (.setCal 0 10 100 3000) e1 = some ([0], [0x280BB80064]) ∧
    answer (.setCal 0 10 4090 4096) e1 = some ([0], [0x2810000FFA]) ∧
    answer (.setCal 0 10 100 3000) { e1 with draws := noPersist } =
      some ([0x6000000000000000], [0x280BB80064]) ∧
    (after (exec (.setCal 0 10 100 3000) { e1 with draws := noPersist })).map (fun t => (t.record 0, t.mem)) =
      some ({ e1Record with calMin := 100, calMax := 3000, wmin := 100, wmax := 140 }, [(0, 2000#12)]) := by decide

/-- G13 to G16, G23, G24. -/
theorem test_setCal_checks : answer (.setCal 0 10 0 4097) e1 = some ([0x2000000000000000], []) ∧
    answer (.setCal 0 10 500 500) e1 = some ([0x2000000000000000], []) ∧
    answer (.setCal 0 10 3000 100) { e1 with draws := noGrant } = some ([0x2000000000000000], []) ∧
    answer (.setCal 0 10 100 3000) { e1 with draws := noGrant } = some ([0x4000000000000000], []) ∧
    answer (.setCal 0 10 3000 100) State.reset = some ([0x2000000000000000], []) ∧
    answer (.setCal 0 10 100 3000) { State.reset with draws := noGrant } = some ([0xA000000000000000], []) := by decide

/-- G18. -/
theorem test_setWidth : (after (exec (.setWidth 0 10 1000) e1)).map (fun t => (t.record 0, window t 0, t.pPort)) =
    some ({ e1Record with width := 1000 }, (1980, 2020), [0x000003E80FFF0000#64]) := by decide

/-- G19, G20. -/
theorem test_setWidth_checks : answer (.setWidth 0 10 0) e1 = some ([0x2000000000000000], []) ∧
    answer (.setWidth 0 10 1001) e1 = some ([0x2000000000000000], []) ∧
    answer (.setWidth 0 10 8191) e1 = some ([0x2000000000000000], []) ∧
    answer (.setWidth 2 10 0) e1 = some ([0x2000000000000000], []) := by decide

/-- G25, G26, G28. -/
theorem test_getStat : answer (.getStat 0) State.reset = some ([0], []) ∧
    answer (.getStat 5) e1 = some ([0x2000000000000000], []) ∧ answer (.getStat 7) e1 = some ([0x2000000000000000], []) ∧
    answer (.getStat 4) { e1 with eng := .burst, notify := true, remain := 2 } = some ([0x207], []) := by decide

/-- R112: each selector reads its own counter. -/
theorem test_getStat_counters :
    let s := { State.reset with cntRead := 11, cntInvalid := 22, cntRderr := 33, cntTimeout := 44 }
    exec (.getStat 0) s = .next { s with rPort := [11] } ∧ exec (.getStat 1) s = .next { s with rPort := [22] } ∧
    exec (.getStat 2) s = .next { s with rPort := [33] } ∧ exec (.getStat 3) s = .next { s with rPort := [44] } :=
  ⟨rfl, rfl, rfl, rfl⟩

/-- L5 (channel 1), L6 (channel 0): the load answers of program P4 line 7. -/
theorem test_start : (after (exec .start { State.reset with
      draws := loads 0x80000014019001F4#64 0x800000140ED800C8#64 })).map
    (fun t => (t.record 0, t.record 1, t.eng, t.rPort)) =
    some (⟨0, 0, 0, 4095, 0, 40, 40, 0, 0⟩, ⟨0, 0, 200, 3800, 200, 220, 20, 0, 0⟩, Eng.wait, [0#64]) := by decide

/-- L2, L3, L4. -/
theorem test_start_refused : exec .start { State.reset with draws := noHw } =
      .next { State.reset with draws := noHw, rPort := [0x8000000000000000#64] } ∧
    exec .start { e1 with draws := noHw } = .next { e1 with draws := noHw, rPort := [0x2000000000000000#64] } :=
  ⟨rfl, rfl⟩

/-- L9, L10. -/
theorem test_stop : exec .stop { e1 with eng := .burst, remain := 2, notify := true, cntTimeout := 1 } =
      .next { e1 with eng := .stopped, cntTimeout := 1, rPort := [0#64] } ∧
    exec .stop State.reset = .next { State.reset with rPort := [0#64] } := ⟨rfl, rfl⟩

/-- G27: every reserved opcode, stopped and started. -/
theorem test_reserved_opcodes : ∀ i ∈ [Instr.cReserved0, .cReservedA, .cReservedB, .cReservedC, .cReservedD, .cReservedE,
      .cReservedF], answer i State.reset = some ([0x2000000000000000], []) ∧
    answer i { e1 with draws := noGrant } = some ([0x2000000000000000], []) := by decide

/-- L13: the reset input; what the records hold is not said. -/
theorem test_rst : (after (step { e1 with schedule := [.rst], cntRead := 7, notify := true })).map
    (fun t => (t.eng, t.notify, t.remain, t.cntRead, t.rPort)) = some (Eng.stopped, false, 0#8, 0#32, []) := rfl

/-- A presented table word runs as the very next step, from reset and with nothing else placed. -/
theorem test_withFetchWord : step (State.reset.withFetchWord 64 0x8000000000000000) = exec .start State.reset ∧
    step (State.reset.withFetchWord 32 0x404007D0) = exec (.smp 4 2000) State.reset ∧
    (after (step (State.reset.withFetchWord 0 0))).map State.eng = some Eng.req := ⟨rfl, rfl, rfl⟩

theorem test_reset_memory_wf : Memory.wf State.reset.mem := by decide

/-- A write keeps the canonical form: writing 0 removes the entry. -/
theorem test_memory_write : Memory.write [(0, 5#12), (2, 6#12)] 1 7 = [(0, 5), (1, 7), (2, 6)] ∧
    Memory.write [(0, 5#12), (2, 6#12)] 2 0 = [(0, 5)] ∧ Memory.read [(0, 5#12), (2, 6#12)] 1 = 0 := by decide

/-! ## Witnesses: for every obligation with hypotheses, values that meet them together, clause by clause -/

/-- O1. -/
theorem witness_DecodeOfEncode : Instr.wf (.smp 255 4095) = true ∧ Instr.wf (.setCal 7 65535 8191 8191) = true ∧
    Instr.wf .cReservedF = true := by decide

/-- A row of another operation that selects the word. -/
theorem witness_TableRowsPartitionWords : (Instr.smp 0 0).row = some (.sample 0xC0000000 0x40000000) ∧
    (TableRow.sample 0xC0000000 0x40000000).selects (.sample 0x404007D0#32) = true := by decide

/-- Every kind; for the commands the operands of one word, and every opcode. -/
theorem witness_DecodeReadsEveryField : (0x3FFFFFFF#32).toNat / 2 ^ 30 = 0 ∧ (0x404007D0#32).toNat / 2 ^ 30 = 1 ∧
    (0x80000002#32).toNat / 2 ^ 30 = 2 ∧ (0xC0000000#32).toNat / 2 ^ 30 = 3 ∧
    ((1#3).toNat = (0x5200000A10000000#64).toNat / 2 ^ 57 % 8 ∧
      (10#16).toNat = (0x5200000A10000000#64).toNat / 2 ^ 32 % 65536 ∧
      (0#13).toNat = (0x5200000A10000000#64).toNat % 8192 ∧
      (4096#13).toNat = (0x5200000A10000000#64).toNat / 2 ^ 16 % 8192 ∧ (0x5200000A10000000#64).toNat / 2 ^ 60 = 5) ∧
    ∀ op ∈ [0, 1, 2, 3, 4, 6, 7, 8, 9, 10, 11, 12, 13, 14, 15], (BitVec.ofNat 64 (op * 2 ^ 60)).toNat / 2 ^ 60 = op := by decide

/-- The S-port clause, for kinds 1 and 2. -/
theorem witness_ReservedBitsIgnored_sample :
    (0x404007D0#32).extractLsb' 30 2 = (0x704FF7D0#32).extractLsb' 30 2 ∧ (0x404007D0#32).extractLsb' 30 2 = 1#2 ∧
    (0x404007D0#32).extractLsb' 20 8 = (0x704FF7D0#32).extractLsb' 20 8 ∧
    (0x404007D0#32).extractLsb' 0 12 = (0x704FF7D0#32).extractLsb' 0 12 ∧
    (0x80000002#32).extractLsb' 30 2 = (0x8FFFFF02#32).extractLsb' 30 2 ∧
    (0x80000002#32).extractLsb' 28 2 = (0x8FFFFF02#32).extractLsb' 28 2 ∧
    (0x80000002#32).extractLsb' 0 8 = (0x8FFFFF02#32).extractLsb' 0 8 := by decide

/-- The C-port clause, for SET_CAL (every operand used) and START (none used). -/
theorem witness_ReservedBitsIgnored_command :
    (0x5000000A0BB80064#64).extractLsb' 60 4 = (0x51FF000AEBB8E064#64).extractLsb' 60 4 ∧
    (0x5000000A0BB80064#64).extractLsb' 57 3 = (0x51FF000AEBB8E064#64).extractLsb' 57 3 ∧
    (0x5000000A0BB80064#64).extractLsb' 32 16 = (0x51FF000AEBB8E064#64).extractLsb' 32 16 ∧
    (0x5000000A0BB80064#64).extractLsb' 0 13 = (0x51FF000AEBB8E064#64).extractLsb' 0 13 ∧
    (0x5000000A0BB80064#64).extractLsb' 16 13 = (0x51FF000AEBB8E064#64).extractLsb' 16 13 ∧
    (0x8000000000000000#64).extractLsb' 60 4 = (0x8FFFFFFFFFFFFFFF#64).extractLsb' 60 4 ∧
    (0x7000000000000004#64).extractLsb' 60 4 = (0x7FFFFFFFFFFFFFFC#64).extractLsb' 60 4 ∧
    (0x7000000000000004#64).extractLsb' 0 3 = (0x7FFFFFFFFFFFFFFC#64).extractLsb' 0 3 := by decide

/-- A presented word, and a presented step of the engine. -/
theorem witness_StepRunsPresentedOperation : (sends State.reset (.sample 0)).cfg.wf = true ∧
    (sends State.reset (.sample 0)).schedule = [.word (.sample 0) Draws.written] ∧
    { at_ .wait true 0 with schedule := [.engineStep] }.schedule = .engineStep :: [] := by decide

theorem witness_StepIdlesWithoutInput : State.reset.cfg.wf = true ∧ State.reset.schedule = [] := by decide

/-- Both sides of the equivalence are met. -/
theorem witness_StepRefusesIllFormedConfiguration :
    step { State.reset with cfg := { vectorConfig with k := 0 } } = .refused .illFormedConfig ∧
    step State.reset = .next State.reset := ⟨rfl, rfl⟩

theorem witness_ResetInputStopsEngine : { e1 with schedule := [.rst] }.cfg.wf = true ∧
    { e1 with schedule := [.rst] }.schedule = .rst :: [] := by decide

theorem witness_NtfSetsNotifyUnlessStopped : State.reset.eng = .stopped ∧ (at_ .burst false 1).eng ≠ .stopped := by decide

theorem witness_WakeTakesNotification : WakeEnabled (at_ .wait true 0) ∧ ¬ WakeEnabled (at_ .wait false 0) ∧
    ¬ WakeEnabled (at_ .req true 0) ∧ (at_ .req false 0).eng = .req ∧ (at_ .burst true 255).eng = .burst ∧
    State.reset.eng = .stopped := by decide

theorem witness_OkHeaderStartsBurst : (at_ .req false 0).eng = .req ∧ 0#8 = 0#8 ∧ 255#8 ≠ 0#8 := by decide

theorem witness_FailedHeaderCountsOnly : (at_ .req true 0).eng = .req ∧ (at_ .wait true 0).eng = .wait := by decide

theorem witness_OutOfProtocolWordsDropped : (at_ .wait false 0).eng ≠ .req ∧ (at_ .req false 0).eng ≠ .burst ∧
    State.reset.eng = .stopped := by decide

/-- A pid that a channel has, the last one, and a pid that none has. -/
theorem witness_LookupFindsOwner : vectorConfig.wf = true ∧ lookup vectorConfig 7 = some 1 ∧
    lookup vectorConfig 9 = none := by decide

theorem witness_UnmatchedSampleCounted : (at_ .burst false 1).eng = .burst ∧ (at_ .burst false 1).remain ≠ 0#8 ∧
    ∀ ch ∈ (at_ .burst false 1).cfg.channels, ch.physId ≠ 9 := by decide

theorem witness_MissedLockDropsSample : (at_ .burst false 255).cfg.wf = true ∧ (at_ .burst false 255).eng = .burst ∧
    (at_ .burst false 255).remain ≠ 0#8 ∧ (at_ .burst false 255).cfg.channels[1]? = some ⟨7, 0, 4095, 40⟩ ∧
    { at_ .burst false 255 with draws := noGrant }.draws.grant = false := by decide

theorem burst_inv : MachineInv (at_ .burst false 1) := by decide

theorem witness_GrantedSampleLatched : MachineInv (at_ .burst false 1) ∧ (at_ .burst false 1).eng = .burst ∧
    (at_ .burst false 1).cfg.channels[(0 : Chan).val]? = some ⟨4, 0, 4095, 40⟩ ∧
    (at_ .burst false 1).draws.grant = true := ⟨burst_inv, by decide⟩

/-- Both engine states of the first clause; the other clauses with the last sample of a burst, with a sample that is not the
last, and with a header that begins a burst. -/
theorem witness_NotificationDuringCycle : (at_ .req false 0).eng = .req ∧ (at_ .burst false 1).eng = .burst ∧
    (at_ .burst true 1).notify = true ∧ Instr.smp 4 10 ≠ .stop ∧
    (∃ t, exec (.smp 4 10) (at_ .burst true 1) = .next t ∧ t.eng = .wait) ∧
    (∃ t, exec (.smp 4 10) (at_ .burst true 2) = .next t ∧ t.eng = .burst) ∧
    ∃ t, exec (.drh .ok 3) (at_ .req true 0) = .next t ∧ t.eng = .burst :=
  ⟨rfl, rfl, rfl, by decide, ⟨_, rfl, rfl⟩, ⟨_, rfl, rfl⟩, ⟨_, rfl, rfl⟩⟩

/-- Both ends of the window. -/
theorem witness_HystHoldsInsideWindow : 1980 ≤ 1980 ∧ 1980 ≤ 2020 ∧ 2020 ≤ 2020 := by decide

/-- Just above the window; the two arms of the new lower end, at `top = width + 1` and `top = width`. -/
theorem witness_HystSlidesUp : 40 < 41 ∧ min (481 + 40 / 2) 4095 > 500 ∧ min (480 + 40 / 2) 4095 ≤ 500 := by decide

theorem witness_HystSlidesDown : 99 < 100 ∧ 100 ≤ 100 := by decide

theorem witness_HystKeepsWindowInvariant : 4095 ≤ 4095 ∧ 4095 < 4096 ∧ 4096 ≤ 4096 ∧ 0 < 4096 ∧ 1 ≤ 1 ∧ 1000 ≤ 1000 := by
  decide

/-- Clause (c), clause (d) with an odd width (H24), clause (e) (H19). -/
theorem witness_HystHoldsRepeatedSample : (1980 ≤ 2010 ∧ 2010 ≤ 2020 ∧ 1980 ≤ 1980) ∧
    (0 ≤ 40 ∧ 40 < 2000 ∧ 2000 + 41 / 2 ≤ 4095 ∧ 41 < 2000 + 41 / 2 ∧ 1 ≤ 41) ∧
    (200 ≤ 240 ∧ 150 < 200 ∧ 40 / 2 ≤ 150 ∧ 100 + 40 / 2 ≤ 150 ∧
      (hyst 150 200 240 40 100 3000).wmin + 40 ≤ 3000) := by decide

theorem witness_FilteredValueWithinSlots : ∃ t, exec (.smp 4 2000) (at_ .burst false 1) = .next t ∧
    ∀ i, i < t.cfg.k → 0 ≤ (Memory.read t.mem (slotKey 0 i)).toNat ∧
      (Memory.read t.mem (slotKey 0 i)).toNat ≤ 2000 := ⟨_, rfl, by decide⟩

/-- The four clauses: channel `N`; bad operands; stopped; lock missed; and an operation of the list. -/
theorem witness_AccessorChecksInOrder : e1.cfg.wf = true ∧ e1.cfg.n ≤ (2#3).toNat ∧ (1#3).toNat < e1.cfg.n ∧
    decide ((500#13).toNat < (500#13).toNat ∧ (500#13).toNat ≤ 4096) = false ∧
    decide ((4095#13).toNat < (4096#13).toNat ∧ (4096#13).toNat ≤ 4096) = true ∧
    State.reset.eng = .stopped ∧ e1.eng ≠ .stopped ∧ { e1 with draws := noGrant }.draws.grant = false := by decide

/-- GET_RAW, GET_FILT, GET_WIDTH, GET_CAL of the last channel. -/
theorem witness_GrantedRead : (1#3).toNat = (1 : Chan).val ∧ (1 : Chan).val < e1.cfg.n ∧ e1.eng ≠ .stopped ∧
    e1.draws.grant = true := by decide

theorem witness_GrantedSetCalMovesWindow : (1#3).toNat = (1 : Chan).val ∧ (1 : Chan).val < e1.cfg.n ∧
    (4095#13).toNat < (4096#13).toNat ∧ (4096#13).toNat ≤ 4096 ∧ e1.eng ≠ .stopped ∧ e1.draws.grant = true := by decide

theorem witness_GrantedSetWidthKeepsWindow : (0#3).toNat = (0 : Chan).val ∧ (0 : Chan).val < e1.cfg.n ∧
    1 ≤ (1000#13).toNat ∧ (1000#13).toNat ≤ 1000 ∧ e1.eng ≠ .stopped ∧ e1.draws.grant = true := by decide

/-- The last clause, at its lowest selector. -/
theorem witness_GetStatAnswersCounters : 5 ≤ (5#3).toNat := by decide

theorem witness_ReadsArePure : e1.lockHeld = false ∧
    Instr.getStat 7 ∈ [Instr.getRaw 6 0, .getFilt 6 0, .getCal 6 0, .getWidth 6 0, .getStat 7] := by decide

/-- A stopped block; a channel; a usable load answer at the upper bounds, and one that is not usable. -/
theorem witness_StartInitialisesEverything : State.reset.cfg.wf = true ∧ Memory.wf State.reset.mem ∧
    State.reset.eng = .stopped ∧ State.reset.draws.hwOk = true ∧
    State.reset.cfg.channels[(1 : Chan).val]? = some ⟨7, 0, 4095, 40⟩ ∧
    loadAnswer 0x800003E810000000#64 = some (0, 4096, 1000) ∧ loadAnswer 0x800003E90FFF0000#64 = some (0, 4095, 1001) ∧
    5000 ∉ slotKeys State.reset.cfg ∧ State.reset.cfg.n ≤ (5 : Chan).val := by decide

theorem witness_StartRejections : e1.eng ≠ .stopped ∧ State.reset.eng = .stopped ∧
    { State.reset with draws := noHw }.draws.hwOk = false := by decide

theorem witness_ReservedOpcodesInvalid : Instr.cReservedF ∈ [Instr.cReserved0, .cReservedA, .cReservedB, .cReservedC,
    .cReservedD, .cReservedE, .cReservedF] ∧ (0#64).toNat / 2 ^ 60 = 0 ∧
    10 ≤ (0xA000000000000000#64).toNat / 2 ^ 60 := by decide

/-- SET_CAL 2, 10, 3000, 100: index and operands both bad. -/
theorem witness_FirstFailureReported : e1.cfg.wf = true ∧ 5 = (0x5400000A00640BB8#64).toNat / 2 ^ 60 ∧
    2 = (0x5400000A00640BB8#64).toNat / 2 ^ 57 % 8 ∧ 3000 = (0x5400000A00640BB8#64).toNat % 8192 ∧
    100 = (0x5400000A00640BB8#64).toNat / 2 ^ 16 % 8192 := by decide

theorem witness_SamplePathIsSilent : (∃ t, exec .wake (at_ .wait true 0) = .next t) ∧
    ∃ t, exec (decode (.sample 0x404007D0#32)) (at_ .burst false 2) = .next t := ⟨⟨_, rfl⟩, ⟨_, rfl⟩⟩

/-- A command that answers INVALID; and one that answers PERSIST_FAIL, then OK. -/
theorem witness_FailedCommandChangesNothing :
    (∃ t, exec (decode (.command 0#64)) e1 = .next t ∧ t.rPort = e1.rPort ++ [0x2000000000000000#64]) ∧
    (0x2000000000000000#64).extractLsb' 61 3 ≠ 0#3 ∧ (0x2000000000000000#64).extractLsb' 61 3 ≠ 3#3 ∧
    (∃ t, exec (decode (.command 0x5000000A0BB80064#64)) { e1 with draws := { e1.draws with persistOk := false } } =
      .next t ∧ t.rPort = [0x6000000000000000#64]) ∧
    (∃ u, exec (decode (.command 0x5000000A0BB80064#64)) { e1 with draws := { e1.draws with persistOk := true } } =
      .next u ∧ u.rPort = [0#64]) := ⟨⟨_, rfl, rfl⟩, by decide, by decide, ⟨_, rfl, rfl⟩, ⟨_, rfl, rfl⟩⟩

theorem witness_SaveWordsOnlyFromSets : ∃ t, exec (.setWidth 0 10 100) e1 = .next t ∧
    t.pPort = [0x640FFF0000#64] := ⟨_, rfl, rfl⟩

/-- An operation that is none of the writers, and one that is a writer. -/
theorem witness_RecordOwnership : (∃ t, exec .stop e1 = .next t) ∧ Instr.stop ≠ .start ∧
    (∃ t, exec (.setCal 0 10 100 3000) e1 = .next t) := ⟨⟨_, rfl⟩, by decide, ⟨_, rfl⟩⟩

theorem witness_CountersMonotonic : (∃ t, exec (.drh .ok 0) (at_ .req false 0) = .next t ∧ t.cntRead = 1) ∧
    ∃ t, exec .stop e1 = .next t := ⟨⟨_, rfl, rfl⟩, ⟨_, rfl⟩⟩

theorem witness_EngineTransitions : ∃ t, exec (.smp 9 123) (at_ .burst false 1) = .next t ∧
    t.eng ≠ (at_ .burst false 1).eng := ⟨_, rfl, by decide⟩

theorem witness_NotifyWriters : ∃ t, exec .stop (at_ .wait true 0) = .next t ∧ t.notify ≠ (at_ .wait true 0).notify :=
  ⟨_, rfl, by decide⟩

theorem witness_RemainWriters : ∃ t, exec (.smp 9 123) (at_ .burst false 255) = .next t ∧
    t.remain ≠ (at_ .burst false 255).remain := ⟨_, rfl, by decide⟩

/-- Also for MemoryStaysCanonical. -/
theorem witness_ConfigurationConstant : ∃ t, step (sends State.reset (.command 0x8000000000000000#64)) = .next t ∧
    Memory.wf (sends State.reset (.command 0x8000000000000000#64)).mem := ⟨_, rfl, by decide⟩

/-- A state that is not the reset state: the last sample of a burst, granted. -/
theorem witness_StepKeepsInvariant : MachineInv (sends (at_ .burst false 1) (.sample 0x404007D0#32)) ∧
    ∃ t, step (sends (at_ .burst false 1) (.sample 0x404007D0#32)) = .next t := ⟨burst_inv, ⟨_, rfl⟩⟩

/-- Both disjuncts are met. -/
theorem witness_OnlyDisabledWakeIsStuck : (∃ t, step (sends e1 (.sample 0)) = .next t) ∧
    step { e1 with schedule := [.engineStep] } = .fault .wakeNotEnabled := ⟨⟨_, rfl⟩, rfl⟩

/-- A drain cycle with two samples, announced by `DRH OK, 2`. -/
def drainCycle : State :=
  { at_ .wait true 0 with schedule := [.engineStep, .word (.sample 0x80000002#32) Draws.written,
      .word (.sample 0x404007D0#32) Draws.written, .word (.sample 0x4090007B#32) noGrant, .rst] }

theorem witness_DrainCycleAppliesSamplesInOrder : drainCycle.cfg.wf = true ∧ drainCycle.eng = .wait ∧
    drainCycle.notify = true ∧ drainCycle.lockHeld = false ∧ drainCycle.remain = 0#8 ∧
    drainCycle.schedule = .engineStep :: .word (.sample 0x80000002#32) Draws.written ::
      ([(0x404007D0#32, Draws.written), (0x4090007B#32, noGrant)].map fun w => Input.word (.sample w.1) w.2) ++ [.rst] ∧
    (0x80000002#32).extractLsb' 30 2 = 2#2 ∧ (0x80000002#32).extractLsb' 28 2 = 0#2 ∧
    ((0x80000002#32).extractLsb' 0 8).toNat = [(0x404007D0#32, Draws.written), (0x4090007B#32, noGrant)].length ∧
    ∀ w ∈ [(0x404007D0#32, Draws.written), (0x4090007B#32, noGrant)], w.1.extractLsb' 30 2 = 1#2 := by decide

/-- TIMEOUT, and the reserved status. -/
theorem witness_FailedDrainCycleTouchesNoRecord : (at_ .wait true 0).cfg.wf = true ∧ (at_ .wait true 0).eng = .wait ∧
    (at_ .wait true 0).notify = true ∧
    { at_ .wait true 0 with schedule := [.engineStep, .word (.sample 0x90000000#32) noGrant] }.schedule =
      .engineStep :: .word (.sample 0x90000000#32) noGrant :: [] ∧
    (0x90000000#32).extractLsb' 30 2 = 2#2 ∧ (0x90000000#32).extractLsb' 28 2 ≠ 0#2 ∧
    (0xB0000000#32).extractLsb' 28 2 ≠ 0#2 := by decide

/-- Two stopped blocks with different records and slots. -/
theorem witness_RestartForgetsEverything : State.reset.cfg = { e1 with eng := .stopped }.cfg ∧
    State.reset.draws = { e1 with eng := .stopped }.draws ∧ State.reset.eng = .stopped ∧
    State.reset.cfg.wf = true ∧ Memory.wf State.reset.mem ∧ Memory.wf { e1 with eng := .stopped }.mem ∧
    State.reset.draws.hwOk = true ∧ State.reset.record 0 ≠ e1.record 0 ∧
    (after (exec .start State.reset)).isSome ∧ (after (exec .start { e1 with eng := .stopped })).isSome := by decide

theorem witness_StoppedRecordsUnobservable : SameButRecords { e1 with eng := .stopped }
      { e1 with eng := .stopped, recs := State.reset.recs, mem := [] } ∧ Memory.wf e1.mem ∧ Memory.wf [] ∧
    { e1 with eng := .stopped }.eng = .stopped := ⟨rfl, by decide, by decide, rfl⟩

/-- Two stopped blocks with different records and slots, and two started ones whose unlisted record places differ. -/
theorem witness_StepKeepsIndistinguishable :
    Indistinguishable { e1 with eng := .stopped } { e1 with eng := .stopped, recs := State.reset.recs, mem := [] } ∧
    Indistinguishable e1 { e1 with recs := e1.recs.set 5 { e1.record 0 with raw := 9 } } ∧
    e1.eng ≠ .stopped ∧ e1.record 0 ≠ State.reset.record 0 :=
  ⟨⟨rfl, by decide, by decide, fun h => absurd rfl h⟩, ⟨rfl, by decide, by decide, by decide⟩, by decide, by decide⟩

end Sys2Proof.Tests
end

/-! # Scope (spec/00_scope.md): the configuration decides whether a step has a meaning, and no step changes it -/

namespace Sys2Proof

/-- R4, R5: a channel's parameters are well-formed exactly when they are in their ranges. -/
theorem ChannelConfig.wf_iff (c : ChannelConfig) :
    c.wf = true ↔ c.calMinDef.toNat < c.calMaxDef.toNat ∧ c.calMaxDef.toNat ≤ 4096 ∧
      1 ≤ c.widthDef.toNat ∧ c.widthDef.toNat ≤ 1000 := by
  simp [ChannelConfig.wf, and_assoc]

/-- R4, R5: the ranges of R4 and pairwise distinct physical identifiers. -/
theorem Config.wf_iff (cfg : Config) :
    cfg.wf = true ↔ 2 ≤ cfg.n ∧ cfg.n ≤ 6 ∧ 1 ≤ cfg.k ∧ cfg.k ≤ 100 ∧
      (cfg.channels.map ChannelConfig.physId).Nodup ∧ ∀ c ∈ cfg.channels, c.wf = true := by
  simp [Config.wf, and_assoc]

end Sys2Proof

namespace Sys2Proof.Machine

/-! ## Refusals -/

/-- The one operation that can answer no next state is WAKE when it is not enabled, and it is a fault (R66). -/
theorem exec_ne_refused (i : Instr) (s : State) (r : Refusal) : exec i s ≠ .refused r := by
  by_cases hen : i = .wake → s.eng = .wait ∧ s.notify = true
  · obtain ⟨t, ht⟩ := exec_total i s hen
    simp [ht]
  · obtain ⟨rfl, hdis⟩ := Classical.not_imp.1 hen
    simp [exec, execWake, hdis]

/-- R5: under an ill-formed configuration a step is refused, whatever is presented. -/
theorem step_of_ill_formed (s : State) (h : s.cfg.wf ≠ true) : step s = .refused .illFormedConfig := if_neg h

/-- A well-formed configuration gives every step a meaning (R5): whatever is presented, the step is not refused. -/
theorem step_ne_refused (s : State) (h : s.cfg.wf = true) (r : Refusal) : step s ≠ .refused r := by
  rw [step, if_pos h]
  split
  · exact nofun
  · exact nofun
  · exact exec_ne_refused _ _ r

theorem step_refused_iff (s : State) : step s = .refused .illFormedConfig ↔ ¬ s.cfg.wf = true :=
  ⟨fun href hwf => step_ne_refused s hwf _ href, step_of_ill_formed s⟩

/-- Settles O9: a step is refused exactly when `Config.wf` fails, and `Config.wf` is the ranges of R4 with distinct
physical identifiers. -/
theorem stepRefusesIllFormedConfiguration : Obligations.StepRefusesIllFormedConfiguration := by
  intro s
  simp only [step_refused_iff, Config.wf_iff, ChannelConfig.wf_iff]

/-! ## The configuration is constant -/

@[simp] theorem State.hardwareReset_cfg (s : State) : s.hardwareReset.cfg = s.cfg := rfl

@[simp] theorem State.initialise_cfg (s : State) : s.initialise.cfg = s.cfg := rfl

@[simp] theorem State.nextAction_cfg (s : State) : s.nextAction.2.cfg = s.cfg := by
  rw [s.nextAction_frame]

@[simp] theorem State.latch_cfg (s : State) (c : Chan) (x : Sample) : (s.latch c x).cfg = s.cfg := rfl

@[simp] theorem State.takeSample_cfg (s : State) (pid : Pid) (raw : Sample) : (s.takeSample pid raw).cfg = s.cfg := by
  obtain ⟨-, h⟩ | ⟨c, -, -, h⟩ | ⟨c, -, -, h⟩ := s.takeSample_cases pid raw <;> simp [h]

@[simp] theorem State.endSample_cfg (s : State) : s.endSample.cfg = s.cfg := by
  obtain ⟨-, h⟩ | ⟨-, h⟩ := s.endSample_cases <;> simp [h]

@[simp] theorem readField_cfg (field : ChannelRecord → BitVec 32) (c : Chan) (s : State) :
    (readField field c s).cfg = s.cfg := rfl

@[simp] theorem writeRecord_cfg (update : ChannelRecord → ChannelRecord) (c : Chan) (s : State) :
    (writeRecord update c s).cfg = s.cfg := by
  rw [writeRecord_eq]

/-- No effect of an operation touches the parameters (R4): each leaves `cfg` by the frame of its state update. -/
theorem Effect.cfg_eq {i : Instr} {s t : State} (h : Effect i s t) : t.cfg = s.cfg := by
  cases h with
  | drop | notified | woken | emptyDrain | burstBegun | drainTimeout | drainError => rfl
  | sampled pid raw => rw [State.endSample_cfg, State.takeSample_cfg]
  | answered | stopped => rw [State.respond_cfg]
  | readRecord field c => rw [readField_cfg]
  | calSet | widthSet => rw [writeRecord_cfg]
  | started => rw [State.respond_cfg, State.initialise_cfg]

/-- Settles O50: an idle step, the reset input and the effect of every operation all leave the configuration. -/
theorem configurationConstant : Obligations.ConfigurationConstant := by
  intro s t h
  have hcfg := s.nextAction_cfg
  obtain ⟨-, ⟨-, -, rfl⟩ | ⟨u, hact, rfl⟩ | ⟨i, u, hact, hexec⟩⟩ := step_next_cases s t h
  · rfl
  · rw [State.hardwareReset_cfg, ← hcfg, hact]
  · rw [(exec_effect i u t hexec).cfg_eq, ← hcfg, hact]

end Sys2Proof.Machine

/-! # Abstract state (spec/10_state.md): what the shared operations leave, and which operation writes which field -/

namespace Sys2Proof.Machine

/-! ## Frames of the sample path, of a record write and of START -/

/-- Taking a sample writes records, slots, `CNT_INVALID` and the lock, and nothing else (R71 to R73). -/
theorem State.takeSample_frame (s : State) (pid : Pid) (raw : Sample) :
    s.takeSample pid raw = { s with
      recs := (s.takeSample pid raw).recs
      mem := (s.takeSample pid raw).mem
      cntInvalid := (s.takeSample pid raw).cntInvalid
      lockHeld := (s.takeSample pid raw).lockHeld } := by
  obtain ⟨-, h⟩ | ⟨c, -, -, h⟩ | ⟨c, -, -, h⟩ := s.takeSample_cases pid raw <;> rw [h] <;> rfl

section
variable (s : State) (pid : Pid) (raw : Sample)

@[simp] theorem State.takeSample_eng : (s.takeSample pid raw).eng = s.eng := by rw [s.takeSample_frame]
@[simp] theorem State.takeSample_notify : (s.takeSample pid raw).notify = s.notify := by rw [s.takeSample_frame]
@[simp] theorem State.takeSample_remain : (s.takeSample pid raw).remain = s.remain := by rw [s.takeSample_frame]
@[simp] theorem State.takeSample_cntRead : (s.takeSample pid raw).cntRead = s.cntRead := by rw [s.takeSample_frame]
@[simp] theorem State.takeSample_cntRderr : (s.takeSample pid raw).cntRderr = s.cntRderr := by
  rw [s.takeSample_frame]
@[simp] theorem State.takeSample_cntTimeout : (s.takeSample pid raw).cntTimeout = s.cntTimeout := by
  rw [s.takeSample_frame]

end

/-- The end of an SMP writes `CNT_READ`, `ENG` and `REMAIN`, and nothing else (R70). -/
theorem State.endSample_frame (s : State) :
    s.endSample = { s with cntRead := s.endSample.cntRead, eng := s.endSample.eng, remain := s.endSample.remain } := by
  obtain ⟨-, h⟩ | ⟨-, h⟩ := s.endSample_cases <;> rw [h]
  rfl

section
variable (s : State)

@[simp] theorem State.endSample_recs : s.endSample.recs = s.recs := by rw [s.endSample_frame]
@[simp] theorem State.endSample_mem : s.endSample.mem = s.mem := by rw [s.endSample_frame]
@[simp] theorem State.endSample_notify : s.endSample.notify = s.notify := by rw [s.endSample_frame]
@[simp] theorem State.endSample_lockHeld : s.endSample.lockHeld = s.lockHeld := by rw [s.endSample_frame]
@[simp] theorem State.endSample_cntInvalid : s.endSample.cntInvalid = s.cntInvalid := by rw [s.endSample_frame]
@[simp] theorem State.endSample_cntRderr : s.endSample.cntRderr = s.cntRderr := by rw [s.endSample_frame]
@[simp] theorem State.endSample_cntTimeout : s.endSample.cntTimeout = s.cntTimeout := by rw [s.endSample_frame]

@[simp] theorem State.endSample_record (c : Chan) : s.endSample.record c = s.record c :=
  State.record_eq_of_recs _ _ c s.endSample_recs

end

/-- A record write updates the record of its channel and no other. -/
theorem writeRecord_record (update : ChannelRecord → ChannelRecord) (c d : Chan) (s : State) :
    (writeRecord update c s).record d = if d = c then update (s.record c) else s.record d := by
  have hrecs : (writeRecord update c s).recs = (s.setRecord c (update (s.record c))).recs := by rw [writeRecord_eq]; rfl
  rw [State.record_eq_of_recs _ _ d hrecs]
  split
  · subst d; exact s.record_setRecord_self c _
  · exact s.record_setRecord_ne c d _ ‹_›

/-- What the update of a record write leaves, the write leaves in every record. -/
theorem writeRecord_record_field {α : Type} (field : ChannelRecord → α) (update : ChannelRecord → ChannelRecord)
    (hkeep : ∀ r, field (update r) = field r) (c d : Chan) (s : State) :
    field ((writeRecord update c s).record d) = field (s.record d) := by
  rw [writeRecord_record]
  split
  · subst d; exact hkeep _
  · rfl

@[simp] theorem State.initialise_eng (s : State) : s.initialise.eng = .wait := rfl
@[simp] theorem State.initialise_remain (s : State) : s.initialise.remain = 0#8 := rfl

/-! ## Ownership of the record fields (R25, R37) -/

/-- A latch leaves the bounds and the width of every record. -/
theorem State.latch_calibration (s : State) (c d : Chan) (x : Sample) :
    ((s.latch c x).record d).calMin = (s.record d).calMin ∧ ((s.latch c x).record d).calMax = (s.record d).calMax ∧
      ((s.latch c x).record d).width = (s.record d).width := by
  by_cases hd : d = c
  · subst d; rw [s.latch_record_self]; exact ⟨rfl, rfl, rfl⟩
  · rw [s.latch_record_ne c d x hd]; exact ⟨rfl, rfl, rfl⟩

/-- Taking a sample leaves the bounds and the width of every record. -/
theorem State.takeSample_calibration (s : State) (pid : Pid) (raw : Sample) (d : Chan) :
    ((s.takeSample pid raw).record d).calMin = (s.record d).calMin ∧
      ((s.takeSample pid raw).record d).calMax = (s.record d).calMax ∧
      ((s.takeSample pid raw).record d).width = (s.record d).width := by
  obtain ⟨-, h⟩ | ⟨c, -, -, h⟩ | ⟨c, -, -, h⟩ := s.takeSample_cases pid raw <;> rw [h]
  · exact ⟨rfl, rfl, rfl⟩
  · exact s.latch_calibration c d raw
  · exact ⟨rfl, rfl, rfl⟩

/-- Settles O45: of the effects but START's, only a sample and the two SETs touch a record, each its own fields. -/
theorem recordOwnership : Obligations.RecordOwnership := by
  intro s t i c hexec hstart
  cases exec_effect i s t hexec with
  | drop | notified | woken | emptyDrain | burstBegun | drainTimeout | drainError | answered | readRecord | stopped =>
    exact ⟨fun _ => ⟨rfl, rfl, rfl, rfl, rfl⟩, fun _ _ => ⟨rfl, rfl⟩, fun _ => ⟨rfl, rfl⟩, fun _ => rfl⟩
  | sampled pid raw hi =>
    obtain ⟨hmin, hmax, hwidth⟩ := s.takeSample_calibration pid raw c
    simp only [State.endSample_record]
    exact ⟨fun hsmp => absurd hi (hsmp pid raw), fun hsmp => absurd hi (hsmp pid raw), fun _ => ⟨hmin, hmax⟩,
      fun _ => hwidth⟩
  | calSet ch wait min max d hi =>
    have hkeep {α : Type} (field : ChannelRecord → α) := writeRecord_record_field field (fun r =>
      { r with calMin := min, calMax := max, wmin := min, wmax := windowTop min max r.width })
      (c := d) (d := c) (s := s)
    exact ⟨fun _ => ⟨rfl, hkeep _ fun _ => rfl, hkeep _ fun _ => rfl, hkeep _ fun _ => rfl, hkeep _ fun _ => rfl⟩,
      fun _ hset => absurd hi (hset ch wait min max), fun hset => absurd hi (hset ch wait min max),
      fun _ => hkeep _ fun _ => rfl⟩
  | widthSet ch wait width d hi =>
    have hkeep {α : Type} (field : ChannelRecord → α) := writeRecord_record_field field (fun r =>
      { r with width := width.setWidth 10 }) (c := d) (d := c) (s := s)
    exact ⟨fun _ => ⟨rfl, hkeep _ fun _ => rfl, hkeep _ fun _ => rfl, hkeep _ fun _ => rfl, hkeep _ fun _ => rfl⟩,
      fun _ _ => ⟨hkeep _ fun _ => rfl, hkeep _ fun _ => rfl⟩, fun _ => ⟨hkeep _ fun _ => rfl, hkeep _ fun _ => rfl⟩,
      fun hset => absurd hi (hset ch wait width)⟩
  | started hi => exact absurd hi hstart

/-! ## Counters (R18) -/

/-- A counter stays, or counts one event. -/
def Counted (before after : BitVec 32) : Prop := after = before ∨ after = oneMore before

theorem Counted.unchanged (c : BitVec 32) : Counted c c := .inl rfl

theorem Counted.satInc (c : BitVec 32) : Counted c (satInc c) := .inr (satInc_eq_oneMore c)

/-- Counting one event never lowers a counter: it saturates (R18). -/
theorem toNat_le_oneMore (c : BitVec 32) : c.toNat ≤ (oneMore c).toNat := by
  rw [← satInc_eq_oneMore]
  have := c.isLt
  simp [Machine.satInc]
  omega

theorem Counted.toNat_le {before after : BitVec 32} (h : Counted before after) : before.toNat ≤ after.toNat := by
  obtain rfl | rfl := h
  · exact le_rfl
  · exact toNat_le_oneMore before

theorem State.takeSample_cntInvalid (s : State) (pid : Pid) (raw : Sample) :
    Counted s.cntInvalid (s.takeSample pid raw).cntInvalid := by
  obtain ⟨-, h⟩ | ⟨c, -, -, h⟩ | ⟨c, -, -, h⟩ := s.takeSample_cases pid raw <;> rw [h]
  · exact .satInc _
  · exact .unchanged _
  · exact .unchanged _

theorem State.endSample_cntRead (s : State) : Counted s.cntRead s.endSample.cntRead := by
  obtain ⟨-, h⟩ | ⟨-, h⟩ := s.endSample_cases <;> rw [h]
  · exact .satInc _
  · exact .unchanged _

/-- Every operation but START counts at most one event in each counter (R18). -/
theorem Effect.counted {i : Instr} {s t : State} (h : Effect i s t) (hstart : i ≠ .start) :
    Counted s.cntRead t.cntRead ∧ Counted s.cntInvalid t.cntInvalid ∧ Counted s.cntRderr t.cntRderr ∧
      Counted s.cntTimeout t.cntTimeout := by
  cases h with
  | drop | notified | woken | burstBegun | answered | readRecord | calSet | widthSet | stopped =>
    exact ⟨.unchanged _, .unchanged _, .unchanged _, .unchanged _⟩
  | emptyDrain => exact ⟨.satInc _, .unchanged _, .unchanged _, .unchanged _⟩
  | drainTimeout => exact ⟨.unchanged _, .unchanged _, .unchanged _, .satInc _⟩
  | drainError => exact ⟨.unchanged _, .unchanged _, .satInc _, .unchanged _⟩
  | sampled pid raw =>
    have hread := (s.takeSample pid raw).endSample_cntRead
    rw [State.takeSample_cntRead] at hread
    simp only [State.endSample_cntInvalid, State.endSample_cntRderr, State.endSample_cntTimeout,
      State.takeSample_cntRderr, State.takeSample_cntTimeout]
    exact ⟨hread, s.takeSample_cntInvalid pid raw, .unchanged _, .unchanged _⟩
  | started hi => exact absurd hi hstart

/-- Only DRH, SMP and START change a counter (R18, R139). -/
theorem Effect.counters_eq {i : Instr} {s t : State} (h : Effect i s t) (hstart : i ≠ .start)
    (hdrh : ∀ st n, i ≠ .drh st n) (hsmp : ∀ pid raw, i ≠ .smp pid raw) :
    t.cntRead = s.cntRead ∧ t.cntInvalid = s.cntInvalid ∧ t.cntRderr = s.cntRderr ∧ t.cntTimeout = s.cntTimeout := by
  cases h with
  | drop | notified | woken | answered | readRecord | calSet | widthSet | stopped => exact ⟨rfl, rfl, rfl, rfl⟩
  | emptyDrain hi => exact absurd hi (hdrh _ _)
  | burstBegun n hi => exact absurd hi (hdrh _ _)
  | drainTimeout n hi => exact absurd hi (hdrh _ _)
  | drainError st n hi => exact absurd hi (hdrh _ _)
  | sampled pid raw hi => exact absurd hi (hsmp _ _)
  | started hi => exact absurd hi hstart

/-- Settles O46: each counter stays or counts one event, and the saturating count never falls. -/
theorem countersMonotonic : Obligations.CountersMonotonic := by
  intro s t i hexec hstart
  have heff := exec_effect i s t hexec
  obtain ⟨hread, hinvalid, hrderr, htimeout⟩ := heff.counted hstart
  exact ⟨hread, hinvalid, hrderr, htimeout, hread.toNat_le, hinvalid.toNat_le, hrderr.toNat_le, htimeout.toNat_le,
    heff.counters_eq hstart⟩

/-! ## Engine, notification and burst counter (R19 to R21) -/

/-- Settles O47: case by case, an effect keeps `ENG` or makes one transition of R19. -/
theorem engineTransitions : Obligations.EngineTransitions := by
  intro s t i hexec hne
  cases exec_effect i s t hexec with
  | drop | notified | answered | readRecord | calSet | widthSet => exact absurd rfl hne
  | started hi hs => exact .inl ⟨hi, hs, rfl⟩
  | woken hi hw => exact .inr (.inl ⟨hi, hw, rfl⟩)
  | emptyDrain hi hr => exact .inr (.inr (.inl ⟨⟨_, _, hi⟩, hr, .inl rfl⟩))
  | drainTimeout n hi hr => exact .inr (.inr (.inl ⟨⟨_, _, hi⟩, hr, .inl rfl⟩))
  | drainError st n hi _ hr => exact .inr (.inr (.inl ⟨⟨_, _, hi⟩, hr, .inl rfl⟩))
  | burstBegun n hi _ hr => exact .inr (.inr (.inl ⟨⟨_, _, hi⟩, hr, .inr rfl⟩))
  | sampled pid raw hi hb =>
    obtain ⟨-, hend⟩ | ⟨-, hend⟩ := (s.takeSample pid raw).endSample_cases <;> rw [hend] at hne ⊢
    · exact .inr (.inr (.inr (.inl ⟨⟨_, _, hi⟩, hb, rfl⟩)))
    · exact absurd (s.takeSample_eng pid raw) hne
  | stopped hi => exact .inr (.inr (.inr (.inr ⟨hi, rfl⟩)))

/-- Settles O48: NTF's effect raises `NOTIFY`, those of WAKE, START and STOP lower it, and every other one keeps it. -/
theorem notifyWriters : Obligations.NotifyWriters := by
  intro s t i hexec hne
  cases exec_effect i s t hexec with
  | drop | emptyDrain | burstBegun | drainTimeout | drainError | answered | readRecord | calSet | widthSet =>
    exact absurd rfl hne
  | sampled pid raw => exact absurd (by simp) hne
  | notified hi hs => exact .inl ⟨hi, hs, rfl⟩
  | woken hi => exact .inr ⟨.inl hi, rfl⟩
  | started hi => exact .inr ⟨.inr (.inl hi), rfl⟩
  | stopped hi => exact .inr ⟨.inr (.inr hi), rfl⟩

/-- The end of an SMP lowers `REMAIN` by one, but for 0, which it leaves (R70). -/
theorem State.endSample_remain (s : State) : s.endSample.remain.toNat = s.remain.toNat - 1 := by
  obtain ⟨hle, h⟩ | ⟨hlt, h⟩ := s.endSample_cases <;> rw [h]
  · show (0#8).toNat = _
    simp; omega
  · have := s.remain.isLt
    simp; omega

/-- Settles O49: a header loads `REMAIN`, a sample lowers it by one, START and STOP clear it, and nothing else
writes it. -/
theorem remainWriters : Obligations.RemainWriters := by
  intro s t i hexec hne
  cases exec_effect i s t hexec with
  | drop | notified | woken | emptyDrain | drainTimeout | drainError | answered | readRecord | calSet | widthSet =>
    exact absurd rfl hne
  | burstBegun n hi _ hr => exact .inl ⟨hr, hi⟩
  | sampled pid raw hi hb =>
    have hlower : (s.takeSample pid raw).endSample.remain.toNat = s.remain.toNat - 1 := by
      rw [State.endSample_remain, State.takeSample_remain]
    have hchanged : (s.takeSample pid raw).endSample.remain.toNat ≠ s.remain.toNat :=
      fun heq => hne (BitVec.eq_of_toNat_eq heq)
    exact .inr (.inl ⟨hb, ⟨pid, raw, hi⟩, by omega⟩)
  | started hi => exact .inr (.inr ⟨.inl hi, rfl⟩)
  | stopped hi => exact .inr (.inr ⟨.inr hi, rfl⟩)

/-! ## The reset state (R26) -/

/-- Settles O11: the values of `State.reset` are written out in its definition. -/
theorem resetStateValues : Obligations.ResetStateValues := ⟨rfl, rfl, rfl, rfl, rfl, rfl, rfl, rfl, rfl⟩

end Sys2Proof.Machine

/-! # The invariants of R24: every step keeps them -/

namespace Sys2Proof.Machine

/-! ## Memory, lock, `REMAIN`, `NOTIFY` -/

theorem State.takeSample_mem_wf (s : State) (pid : Pid) (raw : Sample) (hm : Memory.wf s.mem) :
    Memory.wf (s.takeSample pid raw).mem := by
  obtain ⟨-, h⟩ | ⟨c, -, -, h⟩ | ⟨c, -, -, h⟩ := s.takeSample_cases pid raw <;> rw [h]
  · exact hm
  · exact s.latch_mem_wf c raw hm
  · exact hm

/-- Every operation keeps the memory's canonical form (log entry 5). -/
theorem Effect.mem_wf {i : Instr} {s t : State} (h : Effect i s t) (hm : Memory.wf s.mem) : Memory.wf t.mem := by
  cases h with
  | drop | notified | woken | emptyDrain | burstBegun | drainTimeout | drainError | answered | readRecord | calSet
  | widthSet | stopped => exact hm
  | sampled pid raw => rw [State.endSample_mem]; exact s.takeSample_mem_wf pid raw hm
  | started => exact s.initialise_mem_wf hm

theorem State.takeSample_lockHeld (s : State) (pid : Pid) (raw : Sample) (hfree : s.lockHeld = false) :
    (s.takeSample pid raw).lockHeld = false := by
  obtain ⟨-, h⟩ | ⟨c, -, -, h⟩ | ⟨c, -, -, h⟩ := s.takeSample_cases pid raw <;> rw [h]
  · exact hfree
  · exact hfree

/-- Every operation leaves a free lock free (R22). -/
theorem Effect.lockHeld_eq_false {i : Instr} {s t : State} (h : Effect i s t) (hfree : s.lockHeld = false) :
    t.lockHeld = false := by
  cases h with
  | drop | notified | woken | emptyDrain | burstBegun | drainTimeout | drainError | answered | started | stopped =>
    exact hfree
  | readRecord | calSet | widthSet => rfl
  | sampled pid raw => rw [State.endSample_lockHeld]; exact s.takeSample_lockHeld pid raw hfree

/-- In BURST, the end of an SMP leaves `REMAIN` non-zero exactly when it stays there. -/
theorem State.endSample_remain_iff (s : State) (hb : s.eng = .burst) :
    s.endSample.remain ≠ 0#8 ↔ s.endSample.eng = .burst := by
  obtain ⟨-, h⟩ | ⟨hlt, h⟩ := s.endSample_cases
  · simp [h]
  · have hne : (s.endSample.remain).toNat ≠ 0 := by rw [s.endSample_remain]; omega
    have heng : s.endSample.eng = .burst := by rw [h]; exact hb
    exact ⟨fun _ => heng, fun _ hz => hne (by rw [hz]; rfl)⟩

/-- Every operation keeps `REMAIN` non-zero exactly in BURST (R21). -/
theorem Effect.remain_iff {i : Instr} {s t : State} (h : Effect i s t) (hr : s.remain ≠ 0#8 ↔ s.eng = .burst) :
    t.remain ≠ 0#8 ↔ t.eng = .burst := by
  cases h with
  | drop | notified | answered | readRecord | calSet | widthSet => exact hr
  | woken _ he | emptyDrain _ he | drainTimeout _ _ he | drainError _ _ _ _ he =>
    have hzero : s.remain = 0#8 := by simpa [he] using hr
    simp [hzero]
  | burstBegun n _ hn => simp [hn]
  | sampled pid raw _ hb => exact State.endSample_remain_iff _ (by rw [State.takeSample_eng, hb])
  | started | stopped => simp

/-- No notification is pending in a stopped block (R65, R119): only STOP stops the engine, and it clears `NOTIFY`. -/
theorem Effect.notify_of_stopped {i : Instr} {s t : State} (h : Effect i s t)
    (hs : s.eng = .stopped → s.notify = false) (ht : t.eng = .stopped) : t.notify = false := by
  cases h with
  | drop | answered | readRecord | calSet | widthSet => exact hs ht
  | notified _ hne => exact absurd ht hne
  | woken | stopped | started => rfl
  | emptyDrain | burstBegun | drainTimeout | drainError => cases ht
  | sampled pid raw _ hb =>
    obtain ⟨-, h⟩ | ⟨-, h⟩ := (s.takeSample pid raw).endSample_cases <;> rw [h] at ht
    · cases ht
    · have hburst : (s.takeSample pid raw).eng = .burst := by rw [State.takeSample_eng, hb]
      exact absurd (hburst.symm.trans ht) (by decide)

/-! ## The filter stages keep a channel's record in its ranges -/

/-- R87 (a), (b): HYST answers a sample value and a window that is not empty and stays below `cmax`. -/
theorem hyst_bounds (x wmin wmax width cmin cmax : Nat) (hx : x ≤ 4095) (hw : wmin < wmax) (hm : wmax ≤ cmax)
    (hc : cmin < cmax) (hc' : cmax ≤ 4096) (hwidth : 1 ≤ width) :
    (hyst x wmin wmax width cmin cmax).y ≤ 4095 ∧
      (hyst x wmin wmax width cmin cmax).wmin < (hyst x wmin wmax width cmin cmax).wmax ∧
      (hyst x wmin wmax width cmin cmax).wmax ≤ cmax := by
  unfold hyst
  split
  · simp only; omega
  · split
    · simp only; split <;> omega
    · simp only; omega

/-- R24 for a channel speaks of its own record and of its own `K` slots alone. -/
theorem RecordInv.of_reads_eq {cfg : Config} {mem mem' : Memory} {c : Chan} {r : ChannelRecord}
    (h : RecordInv cfg mem c r)
    (hreads : ∀ i, i < cfg.k → Memory.read mem' (slotKey c i) = Memory.read mem (slotKey c i)) :
    RecordInv cfg mem' c r := by
  obtain ⟨h1, h2, h3, h4, h5, h6, h7, hacc⟩ := h
  exact ⟨h1, h2, h3, h4, h5, h6, h7, hacc.trans (Memory.sum_congr _ _ c _ hreads).symm⟩

/-- Overwriting the slot at the cursor adds the difference to `ACC` (R93), which 19 bits hold (R94). -/
theorem RecordInv.toNat_acc {cfg : Config} {mem : Memory} {c : Chan} {r : ChannelRecord} (h : RecordInv cfg mem c r)
    (hk : cfg.k ≤ 100) (hm : Memory.wf mem) (y : Sample) :
    (BitVec.ofNat 19 (r.acc.toNat - (Memory.read mem (slotKey c r.cur.toNat)).toNat + y.toNat)).toNat =
      Memory.sum (Memory.write mem (slotKey c r.cur.toNat) y) c cfg.k := by
  obtain ⟨-, -, -, -, -, -, hcur, hacc⟩ := h
  have hold := Memory.read_le_sum mem c cfg.k r.cur.toNat hcur
  have hsum := Memory.sum_write mem hm c cfg.k r.cur.toNat y hcur
  have hle := Memory.sum_le (Memory.write mem (slotKey c r.cur.toNat) y) c cfg.k
  rw [BitVec.toNat_ofNat, Nat.mod_eq_of_lt] <;> omega

/-- A latch keeps R24 for the channel it serves (R87, R93). -/
theorem State.latch_recordInv_self (s : State) (c : Chan) (x : Sample) (hwf : s.cfg.wf = true) (hm : Memory.wf s.mem)
    (h : RecordInv s.cfg s.mem c (s.record c)) :
    RecordInv s.cfg (s.latch c x).mem c ((s.latch c x).record c) := by
  obtain ⟨-, -, hk1, hk, -, -⟩ := (Config.wf_iff s.cfg).1 hwf
  obtain ⟨hcal, hcal', hw, hw', hwin, hwin', hcur, -⟩ := id h
  have hx : x.toNat ≤ 4095 := by have := x.isLt; omega
  obtain ⟨-, hlt, hle⟩ : _ ∧ ((s.record c).hyst x).wmin < ((s.record c).hyst x).wmax ∧
    ((s.record c).hyst x).wmax ≤ (s.record c).calMax.toNat := hyst_bounds _ _ _ _ _ _ hx hwin hwin' hcal hcal' hw
  have hnext := Nat.mod_lt ((s.record c).cur.toNat + 1) hk1
  rw [s.latch_record_self]
  refine ⟨hcal, hcal', hw, hw', ?_, ?_, ?_, ?_⟩
  · simp only [BitVec.toNat_ofNat]; omega
  · simp only [BitVec.toNat_ofNat]; omega
  · simp only [BitVec.toNat_ofNat]; omega
  · rw [s.latch_mem]; exact h.toNat_acc hk hm _

/-- A latch keeps R24 for every channel: it touches no slot of another one. -/
theorem State.latch_recordInv (s : State) (c d : Chan) (x : Sample) (hwf : s.cfg.wf = true) (hm : Memory.wf s.mem)
    (hc : RecordInv s.cfg s.mem c (s.record c)) (hd : RecordInv s.cfg s.mem d (s.record d)) :
    RecordInv s.cfg (s.latch c x).mem d ((s.latch c x).record d) := by
  by_cases hdc : d = c
  · subst d; exact s.latch_recordInv_self c x hwf hm hc
  · rw [s.latch_record_ne c d x hdc, s.latch_mem]
    obtain ⟨-, -, -, hk, -, -⟩ := (Config.wf_iff s.cfg).1 hwf
    refine hd.of_reads_eq fun i hi => ?_
    rw [Memory.read_write _ hm, if_neg]
    exact fun hkey => hdc (slotKey_inj d c i _ (by omega) (s.record c).cur.isLt hkey).1

/-- What every configured channel of a started block satisfies (R24). -/
def RecordsInv (s : State) : Prop := ∀ c : Chan, c.val < s.cfg.n → RecordInv s.cfg s.mem c (s.record c)

theorem RecordsInv.takeSample {s : State} (h : RecordsInv s) (pid : Pid) (raw : Sample) (hwf : s.cfg.wf = true)
    (hm : Memory.wf s.mem) : RecordsInv (s.takeSample pid raw) := by
  obtain ⟨-, hs⟩ | ⟨c, hc, -, hs⟩ | ⟨c, -, -, hs⟩ := s.takeSample_cases pid raw <;> rw [hs]
  · exact h
  · exact fun d hd => s.latch_recordInv c d raw hwf hm (h c (lookup_some _ _ _ hc).2) (h d hd)
  · exact h

/-- The end of an SMP touches no record and no slot. -/
theorem RecordsInv.endSample {s : State} (h : RecordsInv s) : RecordsInv s.endSample := by
  intro c hc
  rw [State.endSample_cfg] at hc
  rw [State.endSample_cfg, State.endSample_mem, State.endSample_record]
  exact h c hc

/-- A record write keeps R24 when its update does, for its channel. -/
theorem RecordsInv.writeRecord {s : State} (h : RecordsInv s) (update : ChannelRecord → ChannelRecord) (c : Chan)
    (hc : c.val < s.cfg.n)
    (hupdate : ∀ r, RecordInv s.cfg s.mem c r → RecordInv s.cfg s.mem c (update r)) :
    RecordsInv (writeRecord update c s) := by
  intro d hd
  rw [writeRecord_record]
  split
  · subst d; exact hupdate _ (h c hc)
  · exact h d hd

/-! ## The window of a placement and START's record -/

/-- Valid bounds and a width of at least 1 place a window that is not empty and stays below the upper bound (R106). -/
theorem windowTop_bounds (min max : Bound) (width : HystWidth) (hcal : min.toNat < max.toNat)
    (hw : 1 ≤ width.toNat) :
    min.toNat < (windowTop min max width).toNat ∧ (windowTop min max width).toNat ≤ max.toNat := by
  have := max.isLt
  simp only [windowTop, BitVec.toNat_ofNat, Nat.min_def]
  split <;> omega

theorem calibrationValid_iff (min max : Bound) (width : Nat) :
    (calValid min max && widthValid width) = true ↔
      min.toNat < max.toNat ∧ max.toNat ≤ 4096 ∧ 1 ≤ width ∧ width ≤ 1000 := by
  simp [calValid, widthValid, and_assoc]

/-- A usable loaded triple, or else the defaults: valid bounds and a valid width either way (R27, R118). -/
theorem startCalibration_valid (dflt : ChannelConfig) (load : CWord) (h : dflt.wf = true) :
    (startCalibration dflt load).1.toNat < (startCalibration dflt load).2.1.toNat ∧
      (startCalibration dflt load).2.1.toNat ≤ 4096 ∧
      1 ≤ (startCalibration dflt load).2.2.toNat ∧ (startCalibration dflt load).2.2.toNat ≤ 1000 := by
  have hdflt := (ChannelConfig.wf_iff dflt).1 h
  unfold startCalibration
  split
  · split
    · exact (calibrationValid_iff _ _ _).1 ‹_›
    · exact hdflt
  · exact hdflt

/-- START's record satisfies R24 over zero slots. -/
theorem startRecord_recordInv (cfg : Config) (mem : Memory) (c : Chan) (dflt : ChannelConfig) (load : CWord)
    (hk : 1 ≤ cfg.k) (h : dflt.wf = true) (hsum : Memory.sum mem c cfg.k = 0) :
    RecordInv cfg mem c (startRecord dflt load) := by
  obtain ⟨hcal, hcal', hw, hw'⟩ := startCalibration_valid dflt load h
  obtain ⟨hwin, hwin'⟩ := windowTop_bounds _ _ _ hcal hw
  exact ⟨hcal, hcal', hw, hw', hwin, hwin', hk, hsum.symm⟩

/-- START zeroes every slot of the configuration and no other (R27). -/
theorem State.initialise_read (s : State) (hm : Memory.wf s.mem) (a : Nat) :
    Memory.read s.initialise.mem a = if a ∈ slotKeys s.cfg then 0#12 else Memory.read s.mem a :=
  Memory.read_fill _ _ _ hm a

/-- START leaves every configured slot 0 (R27). -/
theorem State.initialise_read_slot (s : State) (hm : Memory.wf s.mem) (c : Chan) (i : Nat) (hc : c.val < s.cfg.n)
    (hi : i < s.cfg.k) : Memory.read s.initialise.mem (slotKey c i) = 0#12 := by
  rw [s.initialise_read hm, if_pos ((mem_slotKeys s.cfg _).2 ⟨c, i, hc, hi, rfl⟩)]

theorem State.initialise_sum (s : State) (hm : Memory.wf s.mem) (c : Chan) (hc : c.val < s.cfg.n) :
    Memory.sum s.initialise.mem c s.cfg.k = 0 := by
  rw [Memory.sum_congr _ [] c s.cfg.k fun i hi => by rw [s.initialise_read_slot hm c i hc hi, Memory.read_nil]]
  simp [Memory.sum]

theorem State.initialise_recordsInv (s : State) (hwf : s.cfg.wf = true) (hm : Memory.wf s.mem) :
    RecordsInv s.initialise := by
  intro c hc
  obtain ⟨-, -, hk, -, -, hch⟩ := (Config.wf_iff s.cfg).1 hwf
  have hget : s.cfg.channels[c.val]? = some s.cfg.channels[c.val] := List.getElem?_eq_getElem hc
  rw [s.initialise_record c, hget]
  exact startRecord_recordInv _ _ c _ _ hk (hch _ (List.getElem_mem hc)) (s.initialise_sum hm c hc)

/-! ## The invariant -/

/-- Every operation that leaves the block started keeps R24 for every configured channel. -/
theorem Effect.recordsInv {i : Instr} {s t : State} (h : Effect i s t) (hwf : s.cfg.wf = true) (hm : Memory.wf s.mem)
    (hrec : s.eng ≠ .stopped → RecordsInv s) (ht : t.eng ≠ .stopped) : RecordsInv t := by
  cases h with
  | drop | answered | readRecord => exact hrec ht
  | notified _ hs => exact hrec hs
  | woken _ he | emptyDrain _ he | burstBegun _ _ _ he | drainTimeout _ _ he | drainError _ _ _ _ he =>
    exact hrec (by simp [he])
  | sampled pid raw _ he => exact ((hrec (by simp [he])).takeSample pid raw hwf hm).endSample
  | calSet ch wait min max c _ _ hc hcal hcal' hs =>
    refine (hrec hs).writeRecord _ c hc fun r ⟨_, _, hw, hw', _, _, hcur, hacc⟩ => ?_
    obtain ⟨hwin, hwin'⟩ := windowTop_bounds min max r.width hcal hw
    exact ⟨hcal, hcal', hw, hw', hwin, hwin', hcur, hacc⟩
  | widthSet ch wait width c _ _ hc hw hw' hs =>
    refine (hrec hs).writeRecord _ c hc fun r ⟨hcal, hcal', _, _, hwin, hwin', hcur, hacc⟩ => ?_
    have hwidth : (width.setWidth 10).toNat = width.toNat := by rw [BitVec.toNat_setWidth]; omega
    exact ⟨hcal, hcal', hwidth ▸ hw, hwidth ▸ hw', hwin, hwin', hcur, hacc⟩
  | started => exact s.initialise_recordsInv hwf hm
  | stopped => exact absurd rfl ht

/-- Every operation keeps the invariant. -/
theorem Effect.machineInv {i : Instr} {s t : State} (h : Effect i s t) (hinv : MachineInv s) : MachineInv t := by
  obtain ⟨hwf, hm, hfree, hremain, hnotify, hrec⟩ := hinv
  exact ⟨by rw [h.cfg_eq, hwf], h.mem_wf hm, h.lockHeld_eq_false hfree, h.remain_iff hremain,
    h.notify_of_stopped hnotify, h.recordsInv hwf hm hrec⟩

/-- Taking an entry of the schedule keeps the invariant, which speaks of neither schedule nor draws. -/
theorem State.nextAction_machineInv (s : State) (hinv : MachineInv s) : MachineInv s.nextAction.2 := by
  rw [s.nextAction_frame]
  exact hinv

/-- The reset input establishes the invariant from any well-formed configuration with canonical memory (R26). -/
theorem State.hardwareReset_machineInv (s : State) (hwf : s.cfg.wf = true) (hm : Memory.wf s.mem) :
    MachineInv s.hardwareReset :=
  ⟨hwf, s.hardwareReset_mem_wf hm, rfl, by simp [State.hardwareReset], fun _ => rfl, fun hs => absurd rfl hs⟩

/-- Settles O53: an idle step changes nothing, the reset input establishes the invariant, and every operation
keeps it. -/
theorem stepKeepsInvariant : Obligations.StepKeepsInvariant := by
  intro s t hinv h
  have hnext := s.nextAction_machineInv hinv
  obtain ⟨-, ⟨-, -, rfl⟩ | ⟨u, hact, rfl⟩ | ⟨i, u, hact, hexec⟩⟩ := step_next_cases s t h
  · exact hinv
  · rw [hact] at hnext
    obtain ⟨hwf, hm, -⟩ := hnext
    exact u.hardwareReset_machineInv hwf hm
  · rw [hact] at hnext
    exact (exec_effect i u t hexec).machineInv hnext

/-- Settles O52: the reset state is stopped with an empty memory over a well-formed configuration. -/
theorem invariantAtReset : Obligations.InvariantAtReset :=
  ⟨by decide, by decide, rfl, by decide, fun _ => rfl, fun hs => absurd rfl hs⟩

end Sys2Proof.Machine

/-! # START's initialisation (R27, R118) -/

namespace Sys2Proof.Machine

/-- A loaded triple that is present and passes both validations (R52, R105, R107, R118). -/
def LoadUsable (load : CWord) : Prop :=
  load.extractLsb' 63 1 = 1#1 ∧ (load.extractLsb' 0 13).toNat < (load.extractLsb' 16 13).toNat ∧
    (load.extractLsb' 16 13).toNat ≤ 4096 ∧ 1 ≤ (load.extractLsb' 32 10).toNat ∧ (load.extractLsb' 32 10).toNat ≤ 1000

theorem startCalibration_of_usable (dflt : ChannelConfig) (load : CWord) (h : LoadUsable load) :
    startCalibration dflt load = (load.extractLsb' 0 13, load.extractLsb' 16 13, load.extractLsb' 32 10) := by
  obtain ⟨hp, hvalid⟩ := h
  simp only [startCalibration, loadAnswer, if_pos hp, if_pos ((calibrationValid_iff _ _ _).2 hvalid)]

theorem startCalibration_of_not_usable (dflt : ChannelConfig) (load : CWord) (h : ¬ LoadUsable load) :
    startCalibration dflt load = (dflt.calMinDef, dflt.calMaxDef, dflt.widthDef) := by
  by_cases hp : load.extractLsb' 63 1 = 1#1
  · have hinvalid := mt (calibrationValid_iff _ _ _).1 fun hvalid => h ⟨hp, hvalid⟩
    simp only [startCalibration, loadAnswer, if_pos hp, if_neg hinvalid]
  · simp only [startCalibration, loadAnswer, if_neg hp]

/-- The upper window end is not truncated (R27, R106). -/
theorem toNat_windowTop (min max : Bound) (width : HystWidth) :
    (windowTop min max width).toNat = Nat.min (min.toNat + width.toNat) max.toNat :=
  (BitVec.toNat_ofNat _ _).trans (Nat.mod_eq_of_lt (lt_of_le_of_lt (Nat.min_le_right _ _) max.isLt))

/-- START in a stopped block whose hardware comes up initialises and answers OK (R115). -/
theorem exec_start_of_stopped (s : State) (hs : s.eng = .stopped) (hhw : s.draws.hwOk = true) :
    exec .start s = .next (s.initialise.respond .ok 0#32) := by
  simp [exec, execStart, hs, hhw]

/-- Settles O35: START's next state is `initialise`, whose records, slots and frame the lemmas above give. -/
theorem startInitialisesEverything : Obligations.StartInitialisesEverything := by
  intro s _ hm hs hhw
  refine ⟨_, exec_start_of_stopped s hs hhw, rfl, ?_, fun c i hc hi => s.initialise_read_slot hm c i hc hi, ?_, ?_⟩
  · intro c dflt hdflt
    have hrec : s.initialise.record c = startRecord dflt s.draws.load[c] := by rw [s.initialise_record, hdflt]
    refine ⟨_, _, _, _, hrec, toNat_windowTop _ _ _, fun husable => ?_, fun hnot => ?_⟩
    · rw [startCalibration_of_usable dflt _ husable]; exact ⟨rfl, rfl, rfl⟩
    · rw [startCalibration_of_not_usable dflt _ hnot]; exact ⟨rfl, rfl, rfl⟩
  · intro c hc
    exact (s.initialise_record c).trans (by rw [List.getElem?_eq_none hc])
  · intro a ha
    exact (s.initialise_read hm a).trans (if_neg ha)

end Sys2Proof.Machine

/-! # Records and slots of a stopped block are unobservable (R26, R29) -/

namespace Sys2Proof.Machine

/-! ## Two states that differ at most in records and slots -/

section
variable {s t : State} (h : SameButRecords s t)
include h

theorem SameButRecords.cfg_eq : t.cfg = s.cfg := by rw [h]
theorem SameButRecords.cntRead_eq : t.cntRead = s.cntRead := by rw [h]
theorem SameButRecords.cntInvalid_eq : t.cntInvalid = s.cntInvalid := by rw [h]
theorem SameButRecords.cntRderr_eq : t.cntRderr = s.cntRderr := by rw [h]
theorem SameButRecords.cntTimeout_eq : t.cntTimeout = s.cntTimeout := by rw [h]
theorem SameButRecords.eng_eq : t.eng = s.eng := by rw [h]
theorem SameButRecords.notify_eq : t.notify = s.notify := by rw [h]
theorem SameButRecords.remain_eq : t.remain = s.remain := by rw [h]
theorem SameButRecords.schedule_eq : t.schedule = s.schedule := by rw [h]
theorem SameButRecords.draws_eq : t.draws = s.draws := by rw [h]
theorem SameButRecords.rPort_eq : t.rPort = s.rPort := by rw [h]
theorem SameButRecords.pPort_eq : t.pPort = s.pPort := by rw [h]

end

/-- An update that neither reads nor writes records and slots. -/
def RecordBlind (f : State → State) : Prop :=
  ∀ (s : State) (recs : Vector ChannelRecord 6) (mem : Memory),
    f { s with recs := recs, mem := mem } = { f s with recs := recs, mem := mem }

/-- A record-blind update leaves records and slots. -/
theorem RecordBlind.frame {f : State → State} (hf : RecordBlind f) (s : State) :
    f s = { f s with recs := s.recs, mem := s.mem } := hf s s.recs s.mem

theorem State.endSample_recordBlind : RecordBlind State.endSample := by
  intro s recs mem
  simp only [State.endSample, State.countRead]
  split <;> rfl

theorem State.nextAction_recordBlind : RecordBlind fun s => s.nextAction.2 := by
  intro s recs mem
  simp only [State.nextAction]
  split <;> rfl

/-! ## What keeps two states indistinguishable -/

section
variable {s t : State}

theorem Indistinguishable.same (h : Indistinguishable s t) : SameButRecords s t := h.1

/-- A configured channel of a started block has one record in both states. -/
theorem Indistinguishable.record_eq (h : Indistinguishable s t) (hrun : s.eng ≠ .stopped) {c : Chan}
    (hc : c.val < s.cfg.n) : t.record c = s.record c := by
  obtain ⟨-, -, -, hagree⟩ := h
  exact ((hagree hrun).1 c hc).1

theorem Indistinguishable.cur_lt (h : Indistinguishable s t) (hrun : s.eng ≠ .stopped) {c : Chan}
    (hc : c.val < s.cfg.n) : (s.record c).cur.toNat < s.cfg.k := by
  obtain ⟨-, -, -, hagree⟩ := h
  exact ((hagree hrun).1 c hc).2

/-- The slot at the cursor of a configured channel of a started block reads alike in both states. -/
theorem Indistinguishable.read_eq (h : Indistinguishable s t) (hrun : s.eng ≠ .stopped) {c : Chan}
    (hc : c.val < s.cfg.n) : Memory.read t.mem (slotKey c (s.record c).cur.toNat) =
      Memory.read s.mem (slotKey c (s.record c).cur.toNat) := by
  have hkey := (mem_slotKeys s.cfg _).2 ⟨c, _, hc, h.cur_lt hrun hc, rfl⟩
  obtain ⟨-, -, -, hagree⟩ := h
  exact (hagree hrun).2 _ hkey

/-- Stopped, two states need agree on no record and no slot. -/
theorem Indistinguishable.of_stopped (hsame : SameButRecords s t) (hs : Memory.wf s.mem) (ht : Memory.wf t.mem)
    (hstop : s.eng = .stopped) : Indistinguishable s t := ⟨hsame, hs, ht, fun hrun => absurd hstop hrun⟩

/-- A record-blind update that keeps the configuration and starts no engine keeps them indistinguishable. -/
theorem Indistinguishable.map (h : Indistinguishable s t) (f : State → State) (hf : RecordBlind f)
    (hcfg : (f s).cfg = s.cfg) (heng : (f s).eng ≠ .stopped → s.eng ≠ .stopped) : Indistinguishable (f s) (f t) := by
  obtain ⟨hsame, hs, ht, hrun⟩ := h
  have hft : f t = { f s with recs := t.recs, mem := t.mem } := by rw [hsame]; exact hf s t.recs t.mem
  have hsmem : (f s).mem = s.mem := by rw [hf.frame s]
  have hsrec (c : Chan) : (f s).record c = s.record c := State.record_eq_of_recs _ _ c (by rw [hf.frame s])
  rw [hft]
  refine ⟨rfl, by rwa [hsmem], ht, fun hne => ?_⟩
  rw [hcfg, hsmem]
  simp only [hsrec]
  exact hrun (heng hne)

theorem Indistinguishable.respond (h : Indistinguishable s t) (st : Status) (data : BitVec 32) :
    Indistinguishable (s.respond st data) (t.respond st data) :=
  h.map (fun u => u.respond st data) (fun _ _ _ => rfl) rfl id

/-- The same record with a cursor below `K`, put at the same place. -/
theorem Indistinguishable.setRecord (h : Indistinguishable s t) (c : Chan) (r : ChannelRecord)
    (hcur : r.cur.toNat < s.cfg.k) : Indistinguishable (s.setRecord c r) (t.setRecord c r) := by
  obtain ⟨hsame, hs, ht, hrun⟩ := h
  refine ⟨?_, hs, ht, fun hne => ⟨fun d hd => ?_, (hrun hne).2⟩⟩
  · rw [hsame]; rfl
  · by_cases hdc : d = c
    · subst d
      rw [State.record_setRecord_self, State.record_setRecord_self]
      exact ⟨rfl, hcur⟩
    · rw [State.record_setRecord_ne _ _ _ _ hdc, State.record_setRecord_ne _ _ _ _ hdc]
      exact (hrun hne).1 d hd

/-- The same value written to the same slot. -/
theorem Indistinguishable.writeSlot (h : Indistinguishable s t) (a : Nat) (v : Sample) :
    Indistinguishable { s with mem := Memory.write s.mem a v } { t with mem := Memory.write t.mem a v } := by
  obtain ⟨hsame, hs, ht, hrun⟩ := h
  refine ⟨?_, Memory.write_wf _ hs a v, Memory.write_wf _ ht a v, fun hne => ⟨(hrun hne).1, fun b hb => ?_⟩⟩
  · rw [hsame]; rfl
  · simp only [Memory.read_write _ hs, Memory.read_write _ ht, (hrun hne).2 b hb]

/-! ## The operations' parts -/

/-- A latch writes one record and one slot. -/
theorem State.latch_eq_setRecord (s : State) (c : Chan) (x : Sample) :
    s.latch c x = { s.setRecord c ((s.latch c x).record c) with
      mem := Memory.write s.mem (slotKey c (s.record c).cur.toNat) (BitVec.ofNat 12 ((s.record c).hyst x).y) } := by
  rw [s.latch_record_self]
  rfl

theorem Indistinguishable.latch (h : Indistinguishable s t) (hwf : s.cfg.wf = true) (hrun : s.eng ≠ .stopped)
    (c : Chan) (hc : c.val < s.cfg.n) (x : Sample) : Indistinguishable (s.latch c x) (t.latch c x) := by
  obtain ⟨-, -, hk1, hk, -, -⟩ := (Config.wf_iff s.cfg).1 hwf
  have hrec := h.record_eq hrun hc
  have hsame : (t.latch c x).record c = (s.latch c x).record c := by
    rw [State.latch_record_self, State.latch_record_self, hrec, h.read_eq hrun hc, h.same.cfg_eq]
  have hcur : ((s.latch c x).record c).cur.toNat < s.cfg.k := by
    have hnext := Nat.mod_lt ((s.record c).cur.toNat + 1) hk1
    rw [State.latch_record_self]
    simp only [BitVec.toNat_ofNat]
    omega
  rw [s.latch_eq_setRecord, t.latch_eq_setRecord, hsame, hrec]
  exact (h.setRecord c _ hcur).writeSlot _ _

theorem Indistinguishable.takeSample (h : Indistinguishable s t) (hwf : s.cfg.wf = true) (hrun : s.eng ≠ .stopped)
    (pid : Pid) (raw : Sample) : Indistinguishable (s.takeSample pid raw) (t.takeSample pid raw) := by
  unfold State.takeSample
  rw [h.same.cfg_eq, h.same.draws_eq]
  cases hl : lookup s.cfg pid with
  | none => exact h.map State.countInvalid (fun _ _ _ => rfl) rfl id
  | some c =>
    simp only
    split
    · exact (h.latch hwf hrun c (lookup_some _ _ _ hl).2 raw).map (fun u => { u with lockHeld := false })
        (fun _ _ _ => rfl) rfl id
    · exact h

theorem Indistinguishable.readField (h : Indistinguishable s t) (hrun : s.eng ≠ .stopped) (c : Chan)
    (hc : c.val < s.cfg.n) (field : ChannelRecord → BitVec 32) :
    Indistinguishable (readField field c s) (readField field c t) := by
  rw [readField_eq, readField_eq, h.record_eq hrun hc]
  exact h.map (fun u => { u with lockHeld := false, rPort := u.rPort ++ [_] }) (fun _ _ _ => rfl) rfl id

/-- A record write of an update that leaves the cursor. -/
theorem Indistinguishable.writeRecord (h : Indistinguishable s t) (hrun : s.eng ≠ .stopped) (c : Chan)
    (hc : c.val < s.cfg.n) (update : ChannelRecord → ChannelRecord) (hcur : ∀ r, (update r).cur = r.cur) :
    Indistinguishable (writeRecord update c s) (writeRecord update c t) := by
  have hlt : (update (s.record c)).cur.toNat < s.cfg.k := by rw [hcur]; exact h.cur_lt hrun hc
  have hpersist : t.draws.persistOk = s.draws.persistOk := by rw [h.same.draws_eq]
  rw [writeRecord_eq, writeRecord_eq, h.record_eq hrun hc, hpersist]
  exact (h.setRecord c _ hlt).map (fun u => { u with
    lockHeld := false
    pPort := u.pPort ++ [saveWord c (update (s.record c))]
    rPort := u.rPort ++ [responseWord (if s.draws.persistOk then .ok else .persistFail) 0#32] })
    (fun _ _ _ => rfl) rfl id

/-- The checks of the prologue look at no record, so only a granted body has to be compared (R98). -/
theorem Indistinguishable.access (h : Indistinguishable s t) (ch : BitVec 3) (valid : Bool)
    (body : Chan → State → State)
    (hbody : ∀ c : Chan, c.val < s.cfg.n → s.eng ≠ .stopped → Indistinguishable (body c s) (body c t)) :
    Indistinguishable (access s ch valid body) (access t ch valid body) := by
  unfold Machine.access
  rw [h.same.cfg_eq, h.same.eng_eq, h.same.draws_eq]
  cases hc : channelOf s.cfg ch with
  | none => exact h.respond _ _
  | some c =>
    simp only
    split
    · exact h.respond _ _
    · split
      · exact h.respond _ _
      · split
        · exact h.respond _ _
        · exact hbody c (channelOf_some _ _ _ hc).2 ‹_›

/-- START overwrites every configured record and slot from configuration and draws (R27), whatever they held. -/
theorem Indistinguishable.initialise (h : Indistinguishable s t) (hwf : s.cfg.wf = true) :
    Indistinguishable s.initialise t.initialise := by
  obtain ⟨hsame, hs, ht, -⟩ := h
  obtain ⟨-, -, hk1, -, -, -⟩ := (Config.wf_iff s.cfg).1 hwf
  refine ⟨?_, s.initialise_mem_wf hs, t.initialise_mem_wf ht, fun _ => ⟨fun c hc => ?_, fun a ha => ?_⟩⟩
  · rw [hsame]; rfl
  · have hget : s.cfg.channels[c.val]? = some s.cfg.channels[c.val] := List.getElem?_eq_getElem hc
    rw [t.initialise_record, s.initialise_record, hsame.cfg_eq, hsame.draws_eq, hget]
    exact ⟨rfl, hk1⟩
  · rw [t.initialise_read ht, s.initialise_read hs, hsame.cfg_eq]
    exact (if_pos ha).trans (if_pos ha).symm

/-- The reset input leaves two stopped blocks (R145). -/
theorem Indistinguishable.hardwareReset (h : Indistinguishable s t) :
    Indistinguishable s.hardwareReset t.hardwareReset := by
  obtain ⟨hsame, hs, ht, -⟩ := h
  exact .of_stopped (by rw [hsame]; rfl) (s.hardwareReset_mem_wf hs) (t.hardwareReset_mem_wf ht) rfl

end

/-! ## Every operation, every step, every run -/

/-- Two outcomes with indistinguishable next states, or the same stop. -/
inductive StopAlike : Host.Outcome State Fault Refusal → Host.Outcome State Fault Refusal → Prop where
  | next {s t : State} : Indistinguishable s t → StopAlike (.next s) (.next t)
  | fault (f : Fault) : StopAlike (.fault f) (.fault f)
  | refused (r : Refusal) : StopAlike (.refused r) (.refused r)

section
variable {s t : State} (h : Indistinguishable s t)
include h

theorem execNtf_alike : StopAlike (execNtf s) (execNtf t) := by
  unfold execNtf
  by_cases hs : s.eng = .stopped
  · have ht : t.eng = .stopped := h.same.eng_eq.trans hs
    rw [if_pos hs, if_pos ht]
    exact .next h
  · have ht : t.eng ≠ .stopped := h.same.eng_eq ▸ hs
    rw [if_neg hs, if_neg ht]
    exact .next (h.map (fun u => { u with notify := true }) (fun _ _ _ => rfl) rfl id)

theorem execWake_alike : StopAlike (execWake s) (execWake t) := by
  unfold execWake
  rw [h.same.eng_eq, h.same.notify_eq]
  split
  · obtain ⟨hwait, -⟩ := ‹s.eng = .wait ∧ s.notify = true›
    exact .next (h.map (fun u => { u with notify := false, eng := .req }) (fun _ _ _ => rfl) rfl
      fun _ => by simp [hwait])
  · exact .fault _

theorem execDrh_alike (st : DrainStatus) (n : BitVec 8) : StopAlike (execDrh st n s) (execDrh st n t) := by
  unfold execDrh
  rw [h.same.eng_eq]
  split
  · rename_i hreq
    have hrun : s.eng ≠ .stopped := by simp [hreq]
    have hkeep (f : State → State) (hf : RecordBlind f) (hcfg : (f s).cfg = s.cfg) :=
      StopAlike.next (h.map f hf hcfg fun _ => hrun)
    cases st with
    | ok =>
      simp only
      split
      · exact hkeep (fun u => { u.countRead with eng := .wait }) (fun _ _ _ => rfl) rfl
      · exact hkeep (fun u => { u with remain := n, eng := .burst }) (fun _ _ _ => rfl) rfl
    | timeout => exact hkeep (fun u => { u.countTimeout with eng := .wait }) (fun _ _ _ => rfl) rfl
    | error | reserved3 => exact hkeep (fun u => { u.countRderr with eng := .wait }) (fun _ _ _ => rfl) rfl
  · exact .next h

theorem execSmp_alike (hwf : s.cfg.wf = true) (pid : Pid) (raw : Sample) :
    StopAlike (execSmp pid raw s) (execSmp pid raw t) := by
  unfold execSmp
  rw [h.same.eng_eq]
  split
  · rename_i hb
    have hrun : s.eng ≠ .stopped := by simp [hb]
    exact .next ((h.takeSample hwf hrun pid raw).map State.endSample State.endSample_recordBlind
      (State.endSample_cfg _) fun _ => by rwa [State.takeSample_eng])
  · exact .next h

theorem execGetStat_alike (sel : BitVec 3) : StopAlike (execGetStat sel s) (execGetStat sel t) := by
  have hdata : engData t = engData s := by simp only [engData, h.same.remain_eq, h.same.notify_eq, h.same.eng_eq]
  unfold execGetStat
  rw [h.same.cntRead_eq, h.same.cntInvalid_eq, h.same.cntRderr_eq, h.same.cntTimeout_eq, hdata]
  split <;> exact .next (h.respond _ _)

theorem execStart_alike (hwf : s.cfg.wf = true) : StopAlike (execStart s) (execStart t) := by
  unfold execStart
  rw [h.same.eng_eq, h.same.draws_eq]
  split
  · exact .next (h.respond _ _)
  · split
    · exact .next (h.respond _ _)
    · exact .next ((h.initialise hwf).respond _ _)

theorem execStop_alike : StopAlike (execStop s) (execStop t) :=
  .next ((h.map (fun u => { u with eng := .stopped, notify := false, remain := 0 }) (fun _ _ _ => rfl) rfl
    fun hrun => absurd rfl hrun).respond _ _)

/-- Every operation keeps two states indistinguishable, or stops in both for the same reason. -/
theorem exec_alike (hwf : s.cfg.wf = true) (i : Instr) : StopAlike (exec i s) (exec i t) := by
  cases i with
  | ntf => exact execNtf_alike h
  | smp pid raw => exact execSmp_alike h hwf pid raw
  | drh st n => exact execDrh_alike h st n
  | wake => exact execWake_alike h
  | getRaw ch | getFilt ch | getCal ch | getWidth ch =>
    exact .next (h.access ch _ _ fun c hc hrun => h.readField hrun c hc _)
  | setCal ch | setWidth ch =>
    exact .next (h.access ch _ _ fun c hc hrun => h.writeRecord hrun c hc _ fun _ => rfl)
  | getStat sel => exact execGetStat_alike h sel
  | start => exact execStart_alike h hwf
  | stop => exact execStop_alike h
  | sReservedKind3 => exact .next h
  | cReserved0 | cReservedA | cReservedB | cReservedC | cReservedD | cReservedE | cReservedF =>
    exact .next (h.respond _ _)

/-- Both states take the same entry of the schedule. -/
theorem Indistinguishable.nextAction :
    t.nextAction.1 = s.nextAction.1 ∧ Indistinguishable s.nextAction.2 t.nextAction.2 := by
  refine ⟨?_, h.map (fun u => u.nextAction.2) State.nextAction_recordBlind s.nextAction_cfg ?_⟩
  · unfold State.nextAction
    rw [h.same.schedule_eq]
    split <;> rfl
  · rw [s.nextAction_frame]; exact id

theorem step_alike : StopAlike (step s) (step t) := by
  unfold step
  rw [h.same.cfg_eq]
  split
  · rename_i hwf
    obtain ⟨hact, hnext⟩ := h.nextAction
    rw [← s.nextAction_cfg] at hwf
    rcases hs : s.nextAction with ⟨a, u⟩
    rcases ht : t.nextAction with ⟨a', v⟩
    simp only [hs, ht] at hact hnext hwf
    subst a'
    cases a with
    | idle => exact .next hnext
    | reset => exact .next hnext.hardwareReset
    | run i => exact exec_alike hnext hwf i
  · exact .refused _

end

/-- Settles O59: both steps take the same entry of the schedule, and idling, the reset input and every operation keep
the two states indistinguishable or stop alike. -/
theorem stepKeepsIndistinguishable : Obligations.StepKeepsIndistinguishable := by
  intro s t h
  have halike := step_alike h
  generalize step s = o, step t = o' at halike
  cases halike with
  | next hnext => exact .inl ⟨_, _, rfl, rfl, hnext⟩
  | fault f => exact .inr (.inl ⟨f, rfl, rfl⟩)
  | refused r => exact .inr (.inr ⟨r, rfl, rfl⟩)

/-- What a run does after its first step. -/
def runAfter (k : Nat) : Host.Outcome State Fault Refusal → Host.Outcome State Fault Refusal
  | .next s => core.run k s
  | .fault f => .fault f
  | .refused r => .refused r

theorem run_succ (k : Nat) (s : State) : core.run (k + 1) s = runAfter k (step s) := by
  simp only [Host.Core.run]
  change _ = runAfter k (core.step s)
  cases core.step s <;> rfl

theorem run_alike (k : Nat) {s t : State} (h : Indistinguishable s t) : StopAlike (core.run k s) (core.run k t) := by
  induction k generalizing s t with
  | zero => exact .next h
  | succ k ih =>
    have halike := step_alike h
    rw [run_succ, run_succ]
    generalize step s = o, step t = o' at halike ⊢
    cases halike with
    | next hnext => exact ih hnext
    | fault f => exact .fault f
    | refused r => exact .refused r

theorem StopAlike.sameOutputs {o o' : Host.Outcome State Fault Refusal} (h : StopAlike o o') : SameOutputs o o' := by
  cases h with
  | next h =>
    obtain ⟨hsame, -⟩ := h
    exact ⟨hsame.rPort_eq.symm, hsame.pPort_eq.symm, hsame.eng_eq.symm, hsame.notify_eq.symm, hsame.remain_eq.symm,
      hsame.cntRead_eq.symm, hsame.cntInvalid_eq.symm, hsame.cntRderr_eq.symm, hsame.cntTimeout_eq.symm⟩
  | fault | refused => rfl

/-- Settles O58: two stopped blocks that differ in records and slots are indistinguishable, and stay so in every run. -/
theorem stoppedRecordsUnobservable : Obligations.StoppedRecordsUnobservable := by
  intro k s t hsame hs ht hstop
  exact (run_alike k (.of_stopped hsame hs ht hstop)).sameOutputs

end Sys2Proof.Machine

/-! # The buffer memory and the step (spec/20_memory.md) -/

namespace Sys2Proof.Machine

/-! ## The canonical form (R30, R31) -/

/-- Taking an entry of the schedule leaves every slot. -/
@[simp] theorem State.nextAction_mem (s : State) : s.nextAction.2.mem = s.mem := by
  rw [s.nextAction_frame]

/-- Settles O51: an idle step changes nothing, and the reset input and the effect of every operation keep the
memory's canonical form, since they reach it through `Memory.write` alone. -/
theorem memoryStaysCanonical : Obligations.MemoryStaysCanonical := by
  intro s t h hm
  have hnext : Memory.wf s.nextAction.2.mem := by rwa [s.nextAction_mem]
  obtain ⟨-, ⟨-, -, rfl⟩ | ⟨u, hact, rfl⟩ | ⟨i, u, hact, hexec⟩⟩ := step_next_cases s t h
  · exact hm
  · rw [hact] at hnext
    exact u.hardwareReset_mem_wf hnext
  · rw [hact] at hnext
    exact (exec_effect i u t hexec).mem_wf hnext

/-! ## What is presented is run (R34, R40, R42, R62) -/

theorem State.nextAction_word {s : State} {p : PortWord} {d : Draws} {rest : List Input}
    (h : s.schedule = .word p d :: rest) :
    s.nextAction = (.run (decode p), { s with schedule := rest, draws := d }) := by
  simp only [State.nextAction, h]

theorem State.nextAction_engineStep {s : State} {rest : List Input} (h : s.schedule = .engineStep :: rest) :
    s.nextAction = (.run .wake, { s with schedule := rest }) := by
  simp only [State.nextAction, h]

/-- Under a well-formed configuration an action that calls for an operation is that operation's `exec`. -/
theorem step_of_nextAction_run {s u : State} {i : Instr} (hwf : s.cfg.wf = true)
    (hact : s.nextAction = (.run i, u)) : step s = exec i u := by
  rw [step, if_pos hwf, hact]

/-- Settles O7: a word calls for the operation it decodes to, the engine's own step for WAKE. -/
theorem stepRunsPresentedOperation : Obligations.StepRunsPresentedOperation :=
  ⟨fun _ _ _ _ hwf hs => step_of_nextAction_run hwf (State.nextAction_word hs),
    fun _ _ hwf hs => step_of_nextAction_run hwf (State.nextAction_engineStep hs)⟩

end Sys2Proof.Machine

/-! # Encoding (spec/30_encoding.md): fields of a word, the decoder, the encoder, the table, and which port answers -/

namespace Sys2Proof

/-! ## The fields of a word (R6, R53) -/

/-- A field is a quotient and a remainder. -/
theorem toNat_field {n : Nat} (w : BitVec n) (lo len : Nat) :
    (w.extractLsb' lo len).toNat = w.toNat / 2 ^ lo % 2 ^ len := by
  rw [BitVec.extractLsb'_toNat, Nat.shiftRight_eq_div_pow]

theorem eq_field {n lo len : Nat} {w : BitVec n} {v : BitVec len} (h : v.toNat = w.toNat / 2 ^ lo % 2 ^ len) :
    v = w.extractLsb' lo len :=
  BitVec.eq_of_toNat_eq (h.trans (toNat_field w lo len).symm)

/-- The field at the top of a word is a quotient. -/
theorem field_eq_ofNat {n lo k : Nat} (len : Nat) {w : BitVec n} (h : w.toNat / 2 ^ lo = k) :
    w.extractLsb' lo len = BitVec.ofNat len k :=
  BitVec.eq_of_toNat_eq (by rw [toNat_field, h, BitVec.toNat_ofNat])

section
variable {n : Nat} (v : BitVec n) (lo start len : Nat)

/-- A field reads back what was placed in it. -/
theorem extractLsb'_placed_self (N : Nat) (h : lo + n ≤ N) : (v.setWidth N <<< lo).extractLsb' lo n = v := by
  apply BitVec.eq_of_getLsbD_eq
  intro i hi
  have hlo : lo + i < N := by omega
  simpa [hlo] using fun _ => hi

/-- A field reads 0 where the placed one has no bit. -/
theorem extractLsb'_placed_of_disjoint (N : Nat) (h : start + len ≤ lo ∨ lo + n ≤ start) :
    (v.setWidth N <<< lo).extractLsb' start len = 0#len := by
  apply BitVec.eq_of_getLsbD_eq
  intro i hi
  obtain h | h := h
  · have hlo : start + i < lo := by omega
    simp [hlo]
  · have hhi : n ≤ start + i - lo := by omega
    simp [BitVec.getLsbD_of_ge v _ hhi]

@[simp] theorem extractLsb'_place64_self (h : lo + n ≤ 64) : (place64 v lo).extractLsb' lo n = v :=
  extractLsb'_placed_self v lo 64 h

@[simp] theorem extractLsb'_place64_of_disjoint (h : start + len ≤ lo ∨ lo + n ≤ start) :
    (place64 v lo).extractLsb' start len = 0#len := extractLsb'_placed_of_disjoint v lo start len 64 h

@[simp] theorem extractLsb'_place32_self (h : lo + n ≤ 32) : (place32 v lo).extractLsb' lo n = v :=
  extractLsb'_placed_self v lo 32 h

@[simp] theorem extractLsb'_place32_of_disjoint (h : start + len ≤ lo ∨ lo + n ≤ start) :
    (place32 v lo).extractLsb' start len = 0#len := extractLsb'_placed_of_disjoint v lo start len 32 h

end

/-! ## The decoder, kind by kind and opcode by opcode (R46 to R48, R50, R54, R56, R57) -/

theorem kind_cases (k : BitVec 2) : k = 0#2 ∨ k = 1#2 ∨ k = 2#2 ∨ k = 3#2 := by
  revert k; decide

theorem opcode_cases (op : BitVec 4) :
    op = 0x0#4 ∨ op = 0x1#4 ∨ op = 0x2#4 ∨ op = 0x3#4 ∨ op = 0x4#4 ∨ op = 0x5#4 ∨ op = 0x6#4 ∨ op = 0x7#4 ∨
      op = 0x8#4 ∨ op = 0x9#4 ∨ op = 0xA#4 ∨ op = 0xB#4 ∨ op = 0xC#4 ∨ op = 0xD#4 ∨ op = 0xE#4 ∨ op = 0xF#4 := by
  revert op; decide

theorem opField_of_quotient {w : CWord} {k : Nat} (h : w.toNat / 2 ^ 60 = k) : opField w = BitVec.ofNat 4 k :=
  field_eq_ofNat 4 h

section
variable {w : SWord}

@[simp] theorem decode_ntf (h : w.extractLsb' 30 2 = 0#2) : decode (.sample w) = .ntf := by
  simp only [decode, decodeSample, h]

@[simp] theorem decode_smp (h : w.extractLsb' 30 2 = 1#2) :
    decode (.sample w) = .smp (w.extractLsb' 20 8) (w.extractLsb' 0 12) := by
  simp only [decode, decodeSample, h]

@[simp] theorem decode_drh (h : w.extractLsb' 30 2 = 2#2) :
    decode (.sample w) = .drh (.ofBits (w.extractLsb' 28 2)) (w.extractLsb' 0 8) := by
  simp only [decode, decodeSample, h]

@[simp] theorem decode_sReservedKind3 (h : w.extractLsb' 30 2 = 3#2) : decode (.sample w) = .sReservedKind3 := by
  rw [decode, decodeSample, h]; rfl

end

section
variable {w : CWord}

@[simp] theorem decode_getRaw (h : opField w = 0x1#4) : decode (.command w) = .getRaw (chField w) (waitField w) := by
  simp only [decode, decodeCommand, h]

@[simp] theorem decode_getFilt (h : opField w = 0x2#4) : decode (.command w) = .getFilt (chField w) (waitField w) := by
  simp only [decode, decodeCommand, h]

@[simp] theorem decode_getCal (h : opField w = 0x3#4) : decode (.command w) = .getCal (chField w) (waitField w) := by
  simp only [decode, decodeCommand, h]

@[simp] theorem decode_getWidth (h : opField w = 0x4#4) :
    decode (.command w) = .getWidth (chField w) (waitField w) := by
  simp only [decode, decodeCommand, h]

@[simp] theorem decode_setCal (h : opField w = 0x5#4) :
    decode (.command w) = .setCal (chField w) (waitField w) (aField w) (bField w) := by
  simp only [decode, decodeCommand, h]

@[simp] theorem decode_setWidth (h : opField w = 0x6#4) :
    decode (.command w) = .setWidth (chField w) (waitField w) (aField w) := by
  simp only [decode, decodeCommand, h]

@[simp] theorem decode_getStat (h : opField w = 0x7#4) : decode (.command w) = .getStat (w.extractLsb' 0 3) := by
  simp only [decode, decodeCommand, h]

@[simp] theorem decode_start (h : opField w = 0x8#4) : decode (.command w) = .start := by
  simp only [decode, decodeCommand, h]

@[simp] theorem decode_stop (h : opField w = 0x9#4) : decode (.command w) = .stop := by
  simp only [decode, decodeCommand, h]

@[simp] theorem decode_cReserved0 (h : opField w = 0x0#4) : decode (.command w) = .cReserved0 := by
  simp only [decode, decodeCommand, h]

@[simp] theorem decode_cReservedA (h : opField w = 0xA#4) : decode (.command w) = .cReservedA := by
  simp only [decode, decodeCommand, h]

@[simp] theorem decode_cReservedB (h : opField w = 0xB#4) : decode (.command w) = .cReservedB := by
  simp only [decode, decodeCommand, h]

@[simp] theorem decode_cReservedC (h : opField w = 0xC#4) : decode (.command w) = .cReservedC := by
  simp only [decode, decodeCommand, h]

@[simp] theorem decode_cReservedD (h : opField w = 0xD#4) : decode (.command w) = .cReservedD := by
  simp only [decode, decodeCommand, h]

@[simp] theorem decode_cReservedE (h : opField w = 0xE#4) : decode (.command w) = .cReservedE := by
  simp only [decode, decodeCommand, h]

@[simp] theorem decode_cReservedF (h : opField w = 0xF#4) : decode (.command w) = .cReservedF := by
  rw [decode, decodeCommand, h]; rfl

end

/-! ## Decoding an encoded word -/

theorem decode_smp_word (pid : Pid) (raw : Sample) :
    decode (.sample (place32 1#2 30 ||| place32 pid 20 ||| place32 raw 0)) = .smp pid raw := by
  have hkind : (place32 1#2 30 ||| place32 pid 20 ||| place32 raw 0).extractLsb' 30 2 = 1#2 := by
    simp [BitVec.extractLsb'_or]
  rw [decode_smp hkind]
  simp [BitVec.extractLsb'_or]

theorem decode_drh_word (st : DrainStatus) (n : BitVec 8) :
    decode (.sample (place32 2#2 30 ||| place32 st.toBits 28 ||| place32 n 0)) = .drh st n := by
  have hkind : (place32 2#2 30 ||| place32 st.toBits 28 ||| place32 n 0).extractLsb' 30 2 = 2#2 := by
    simp [BitVec.extractLsb'_or]
  rw [decode_drh hkind]
  simp [BitVec.extractLsb'_or]

/-- Settles O1: the fields of an encoded word read back what the encoder placed in them; every C-port operation is packed by
`commandWord`, whose opcode selects the operation's own clause of the decoder. -/
theorem decodeOfEncode : Obligations.DecodeOfEncode := by
  intro i hi
  cases i with
  | wake => cases hi
  | ntf => exact ⟨_, rfl, decode_ntf (extractLsb'_place32_self _ _ (by decide))⟩
  | sReservedKind3 => exact ⟨_, rfl, decode_sReservedKind3 (extractLsb'_place32_self _ _ (by decide))⟩
  | smp pid raw => exact ⟨_, rfl, decode_smp_word pid raw⟩
  | drh st n => exact ⟨_, rfl, decode_drh_word st n⟩
  -- the C-port: the `commandWord` laws give the opcode and the operands, the opcode its `decode_…` law
  | _ => exact ⟨_, rfl, by simp⟩

/-! ## The operation table (R54, R55) -/

/-- The row whose match is the word itself under the mask of its port: kind or opcode. -/
def PortWord.row : PortWord → TableRow
  | .sample w => .sample 0xC0000000 (w &&& 0xC0000000)
  | .command w => .command 0xF000000000000000 (w &&& 0xF000000000000000)

theorem PortWord.row_selects (p : PortWord) : p.row.selects p = true := by
  cases p <;> simp [PortWord.row, TableRow.selects]

theorem and_kindMask (w : SWord) : w &&& 0xC0000000 = place32 (w.extractLsb' 30 2) 30 := by
  apply BitVec.eq_of_getLsbD_eq
  intro i hi
  interval_cases i <;> simp [place32]

theorem and_opMask (w : CWord) : w &&& 0xF000000000000000 = place64 (opField w) 60 := by
  apply BitVec.eq_of_getLsbD_eq
  intro i hi
  interval_cases i <;> simp [opField, place64]

theorem row_decode (p : PortWord) : (decode p).row = some p.row := by
  cases p with
  | sample w =>
    rw [PortWord.row, and_kindMask]
    obtain h | h | h | h := kind_cases (w.extractLsb' 30 2) <;> simp [h, Instr.row, place32]
  | command w =>
    rw [PortWord.row, and_opMask]
    obtain h | h | h | h | h | h | h | h | h | h | h | h | h | h | h | h := opcode_cases (opField w) <;>
      simp [h, Instr.row, place64]

/-- Every row has the mask of its port. -/
theorem row_mask {i : Instr} {r : TableRow} (h : i.row = some r) :
    (∃ m, r = .sample 0xC0000000 m) ∨ ∃ m, r = .command 0xF000000000000000 m := by
  cases i with
  | wake => cases h
  | ntf | smp | drh | sReservedKind3 => cases h; exact .inl ⟨_, rfl⟩
  | _ => cases h; exact .inr ⟨_, rfl⟩

/-- The mask and the word fix the match: a row that selects a word is that word's row. -/
theorem row_eq_of_selects {i : Instr} {r : TableRow} {p : PortWord} (hrow : i.row = some r)
    (hsel : r.selects p = true) : r = p.row := by
  obtain ⟨m, rfl⟩ | ⟨m, rfl⟩ := row_mask hrow <;> cases p
  case inl.sample w => rw [PortWord.row, of_decide_eq_true hsel]
  case inr.command w => rw [PortWord.row, of_decide_eq_true hsel]
  all_goals cases hsel

/-- Settles O3: both the row of the decoded operation and any row that selects the word are the word's own row. -/
theorem tableRowsPartitionWords : Obligations.TableRowsPartitionWords :=
  fun p => ⟨p.row, row_decode p, p.row_selects, fun _ _ => row_eq_of_selects⟩

theorem decode_ne_wake (p : PortWord) : decode p ≠ .wake := by
  intro h
  have hrow := row_decode p
  rw [h] at hrow
  cases hrow

/-- Settles O2: WAKE has no row of the table, and the operation of every word has one. -/
theorem wakeHasNoWord : Obligations.WakeHasNoWord := ⟨rfl, decode_ne_wake⟩

/-! ## What the decoder reads and what it ignores (R53, R58, R113) -/

/-- Settles O4: kind by kind and opcode by opcode, both words fall under one clause of the decoder, which reads the fields
the operation uses and no others. -/
theorem reservedBitsIgnored : Obligations.ReservedBitsIgnored := by
  constructor
  · intro v w hkind hsmp hdrh
    obtain h | h | h | h := kind_cases (v.extractLsb' 30 2)
    · rw [decode_ntf h, decode_ntf (hkind ▸ h)]
    · obtain ⟨hpid, hraw⟩ := hsmp h
      rw [decode_smp h, decode_smp (hkind ▸ h), hpid, hraw]
    · obtain ⟨hst, hn⟩ := hdrh h
      rw [decode_drh h, decode_drh (hkind ▸ h), hst, hn]
    · rw [decode_sReservedKind3 h, decode_sReservedKind3 (hkind ▸ h)]
  · intro v w (hop : opField v = opField w) hcw ha hb hsel
    have haccess {k : BitVec 4} (h : opField v = k) (hk : 1 ≤ k.toNat ∧ k.toNat ≤ 6) :
        chField v = chField w ∧ waitField v = waitField w := by
      subst h
      exact hcw hk.1 hk.2
    obtain h | h | h | h | h | h | h | h | h | h | h | h | h | h | h | h := opcode_cases (opField v)
    · rw [decode_cReserved0 h, decode_cReserved0 (hop ▸ h)]
    · obtain ⟨hch, hwait⟩ := haccess h (by decide)
      rw [decode_getRaw h, decode_getRaw (hop ▸ h), hch, hwait]
    · obtain ⟨hch, hwait⟩ := haccess h (by decide)
      rw [decode_getFilt h, decode_getFilt (hop ▸ h), hch, hwait]
    · obtain ⟨hch, hwait⟩ := haccess h (by decide)
      rw [decode_getCal h, decode_getCal (hop ▸ h), hch, hwait]
    · obtain ⟨hch, hwait⟩ := haccess h (by decide)
      rw [decode_getWidth h, decode_getWidth (hop ▸ h), hch, hwait]
    · obtain ⟨hch, hwait⟩ := haccess h (by decide)
      have hmin : aField v = aField w := ha (.inl h)
      have hmax : bField v = bField w := hb h
      rw [decode_setCal h, decode_setCal (hop ▸ h), hch, hwait, hmin, hmax]
    · obtain ⟨hch, hwait⟩ := haccess h (by decide)
      have hwidth : aField v = aField w := ha (.inr h)
      rw [decode_setWidth h, decode_setWidth (hop ▸ h), hch, hwait, hwidth]
    · rw [decode_getStat h, decode_getStat (hop ▸ h), hsel h]
    · rw [decode_start h, decode_start (hop ▸ h)]
    · rw [decode_stop h, decode_stop (hop ▸ h)]
    · rw [decode_cReservedA h, decode_cReservedA (hop ▸ h)]
    · rw [decode_cReservedB h, decode_cReservedB (hop ▸ h)]
    · rw [decode_cReservedC h, decode_cReservedC (hop ▸ h)]
    · rw [decode_cReservedD h, decode_cReservedD (hop ▸ h)]
    · rw [decode_cReservedE h, decode_cReservedE (hop ▸ h)]
    · rw [decode_cReservedF h, decode_cReservedF (hop ▸ h)]

theorem DrainStatus.toBits_ofBits (b : BitVec 2) : (DrainStatus.ofBits b).toBits = b := by
  revert b; decide

/-- Settles O5: the top field of a word is the quotient that chooses the clause of the decoder, and the clause reads each
operand from the field that is the operand's quotient and remainder. -/
theorem decodeReadsEveryField : Obligations.DecodeReadsEveryField := by
  refine ⟨fun w => ⟨fun h => ?_, fun h => ?_, fun h => ?_, fun h => ?_⟩, ?_, fun w => ?_⟩
  · exact decode_ntf (field_eq_ofNat 2 h)
  · exact ⟨_, _, decode_smp (field_eq_ofNat 2 h), toNat_field w 20 8, by simp⟩
  · refine ⟨_, _, decode_drh (field_eq_ofNat 2 h), by simp, ?_⟩
    generalize hst : DrainStatus.ofBits (w.extractLsb' 28 2) = st
    have hfield : st.toBits.toNat = w.toNat / 2 ^ 28 % 4 := by
      rw [← hst, DrainStatus.toBits_ofBits]
      exact toNat_field w 28 2
    rw [← hfield]
    cases st <;> rfl
  · exact decode_sReservedKind3 (field_eq_ofNat 2 h)
  · intro w ch wait a b hch hwait ha hb
    obtain rfl : ch = chField w := eq_field hch
    obtain rfl : wait = waitField w := eq_field hwait
    obtain rfl : a = aField w := eq_field (by simpa using ha)
    obtain rfl : b = bField w := eq_field hb
    exact ⟨fun h => decode_getRaw (opField_of_quotient h), fun h => decode_getFilt (opField_of_quotient h),
      fun h => decode_getCal (opField_of_quotient h), fun h => decode_getWidth (opField_of_quotient h),
      fun h => decode_setCal (opField_of_quotient h), fun h => decode_setWidth (opField_of_quotient h),
      fun h => ⟨_, decode_getStat (opField_of_quotient h), by simp⟩,
      fun h => decode_start (opField_of_quotient h), fun h => decode_stop (opField_of_quotient h)⟩
  · exact ⟨fun h => decode_cReserved0 (opField_of_quotient h), fun h => decode_cReservedA (opField_of_quotient h),
      fun h => decode_cReservedB (opField_of_quotient h), fun h => decode_cReservedC (opField_of_quotient h),
      fun h => decode_cReservedD (opField_of_quotient h), fun h => decode_cReservedE (opField_of_quotient h),
      fun h => decode_cReservedF (opField_of_quotient h)⟩

end Sys2Proof

namespace Sys2Proof.Machine

/-! ## The response word (R49, R123) -/

section
variable (st : Status) (data : BitVec 32)

@[simp] theorem responseWord_status : (responseWord st data).extractLsb' 61 3 = st.code := by
  simp [responseWord, BitVec.extractLsb'_or]

@[simp] theorem responseWord_zero : (responseWord st data).extractLsb' 32 29 = 0 := by
  simp [responseWord, BitVec.extractLsb'_or]

@[simp] theorem responseWord_data : (responseWord st data).extractLsb' 0 32 = data := by
  simp [responseWord, BitVec.extractLsb'_or]

end

/-- Settles O39: the three fields of a response word, and the code of each status. -/
theorem responseWordLayout : Obligations.ResponseWordLayout := by
  intro st data
  refine ⟨responseWord_data st data, responseWord_zero st data, ?_⟩
  rw [responseWord_status]
  cases st <;> rfl

/-! ## Commands answer, the sample path is silent (R49, R57, R131) -/

/-- A command places exactly one response word, its data 0 unless the status is OK. -/
theorem Effect.responds {i : Instr} {s t : State} (h : Effect i s t) (hi : i.isCommand = true) :
    ∃ st data, t.rPort = s.rPort ++ [responseWord st data] ∧ (st = .ok ∨ data = 0#32) := by
  cases h with
  | drop hdrop => obtain rfl | ⟨_, _, rfl⟩ | ⟨_, _, rfl⟩ | rfl := hdrop <;> cases hi
  | notified he | woken he | emptyDrain he | burstBegun _ he | drainTimeout _ he | drainError _ _ he | sampled _ _ he =>
    subst he; cases hi
  | answered st d _ _ hd => exact ⟨st, d, rfl, hd⟩
  | readRecord field c => exact ⟨_, _, rfl, .inl rfl⟩
  | calSet | widthSet => exact ⟨_, 0#32, by rw [writeRecord_eq], .inr rfl⟩
  | started | stopped => exact ⟨_, _, rfl, .inl rfl⟩

/-- Settles O40: a C-port word carries a command, a command always completes, and it places one response word. -/
theorem everyCommandAnswered : Obligations.EveryCommandAnswered := by
  intro s w
  obtain ⟨t, ht⟩ := exec_total (decode (.command w)) s fun h => absurd h (decode_ne_wake _)
  obtain ⟨st, data, hport, hdata⟩ := (exec_effect _ s t ht).responds (isCommand_decode_command w)
  refine ⟨t, responseWord st data, ht, hport, ?_⟩
  rw [responseWord_status, responseWord_zero, responseWord_data]
  exact ⟨st.code_le, rfl, fun hcode => hdata.resolve_left fun hok => hcode (by rw [hok]; rfl)⟩

section
variable (s : State)

@[simp] theorem State.takeSample_rPort (pid : Pid) (raw : Sample) : (s.takeSample pid raw).rPort = s.rPort := by
  rw [s.takeSample_frame]
@[simp] theorem State.takeSample_pPort (pid : Pid) (raw : Sample) : (s.takeSample pid raw).pPort = s.pPort := by
  rw [s.takeSample_frame]
@[simp] theorem State.endSample_rPort : s.endSample.rPort = s.rPort := by rw [s.endSample_frame]
@[simp] theorem State.endSample_pPort : s.endSample.pPort = s.pPort := by rw [s.endSample_frame]

end

/-- An operation that is no command puts out no word. -/
theorem Effect.silent {i : Instr} {s t : State} (h : Effect i s t) (hi : i.isCommand = false) :
    t.rPort = s.rPort ∧ t.pPort = s.pPort := by
  cases h with
  | drop | notified | woken | emptyDrain | burstBegun | drainTimeout | drainError => exact ⟨rfl, rfl⟩
  | sampled => simp
  | answered _ _ hcmd | readRecord _ _ hcmd => cases hi.symm.trans hcmd
  | calSet _ _ _ _ _ he | widthSet _ _ _ _ he | started he | stopped he => subst he; cases hi

/-- Settles O42: an S-port word carries neither WAKE, the one operation that can be stuck, nor a command, and only
commands put out words. -/
theorem samplePathIsSilent : Obligations.SamplePathIsSilent := by
  constructor
  · intro s w
    exact exec_total _ s fun h => absurd h (decode_ne_wake _)
  · intro s t i hi ht
    refine (exec_effect i s t ht).silent ?_
    obtain rfl | ⟨w, rfl⟩ := hi
    · rfl
    · exact isCommand_decode_sample w

/-! ## Dropped words and reserved opcodes (R56, R57, R76) -/

/-- Settles O16: the reserved kind does nothing, and each other S-port operation checks `ENG` first. -/
theorem outOfProtocolWordsDropped : Obligations.OutOfProtocolWordsDropped :=
  fun _ _ _ _ _ => ⟨rfl, fun h => if_neg h, fun h => if_neg h, fun h => if_pos h⟩

/-- The operations of the reserved opcodes (R56). -/
def reservedCommands : List Instr :=
  [.cReserved0, .cReservedA, .cReservedB, .cReservedC, .cReservedD, .cReservedE, .cReservedF]

theorem exec_reservedCommand (s : State) {i : Instr} (hi : i ∈ reservedCommands) :
    exec i s = .next { s with rPort := s.rPort ++ [0x2000000000000000#64] } := by
  simp only [reservedCommands, List.mem_cons, List.not_mem_nil, or_false] at hi
  obtain rfl | rfl | rfl | rfl | rfl | rfl | rfl := hi <;> rfl

theorem decode_mem_reservedCommands (w : CWord) (h : w.toNat / 2 ^ 60 = 0 ∨ 10 ≤ w.toNat / 2 ^ 60) :
    decode (.command w) ∈ reservedCommands := by
  have hop : w.toNat / 2 ^ 60 = 0 ∨ w.toNat / 2 ^ 60 = 10 ∨ w.toNat / 2 ^ 60 = 11 ∨ w.toNat / 2 ^ 60 = 12 ∨
      w.toNat / 2 ^ 60 = 13 ∨ w.toNat / 2 ^ 60 = 14 ∨ w.toNat / 2 ^ 60 = 15 := by
    have := w.isLt
    omega
  obtain h | h | h | h | h | h | h := hop <;> simp [opField_of_quotient h, reservedCommands]

/-- Settles O38: every word of a reserved opcode decodes to a reserved command, and each of those answers INVALID before
any check. -/
theorem reservedOpcodesInvalid : Obligations.ReservedOpcodesInvalid :=
  fun s _ hi => ⟨exec_reservedCommand s hi, fun w hw => exec_reservedCommand s (decode_mem_reservedCommands w hw)⟩

end Sys2Proof.Machine

/-! # The sample path (spec/40_acquisition.md): one operation, one sample, a whole drain cycle -/

namespace Sys2Proof

/-! ## The status of a drain answer (R48) -/

theorem DrainStatus.ofBits_eq_ok_iff (b : BitVec 2) : DrainStatus.ofBits b = .ok ↔ b = 0#2 := by
  revert b; decide

theorem DrainStatus.ofBits_eq_timeout_iff (b : BitVec 2) : DrainStatus.ofBits b = .timeout ↔ b = 1#2 := by
  revert b; decide

end Sys2Proof

namespace Sys2Proof.Machine

/-! ## One equation per S-port operation and engine state (R65 to R70) -/

section
variable {s : State}

theorem exec_ntf_of_running (h : s.eng ≠ .stopped) : exec .ntf s = .next { s with notify := true } := if_neg h

theorem exec_wake_of_enabled (h : WakeEnabled s) :
    exec .wake s = .next { s with notify := false, eng := .req } := if_pos h

theorem exec_wake_of_not_enabled (h : ¬ WakeEnabled s) : exec .wake s = .fault .wakeNotEnabled := if_neg h

/-- An OK header without samples completes its cycle at once (R68). -/
theorem exec_drh_ok_zero (h : s.eng = .req) :
    exec (.drh .ok 0#8) s = .next { s with cntRead := oneMore s.cntRead, eng := .wait } := by
  simp [exec, execDrh, h, State.countRead, satInc_eq_oneMore]

/-- An OK header with samples begins the burst (R68). -/
theorem exec_drh_ok_of_ne_zero {n : BitVec 8} (h : s.eng = .req) (hn : n ≠ 0#8) :
    exec (.drh .ok n) s = .next { s with remain := n, eng := .burst } := by
  simp [exec, execDrh, h, hn]

/-- A failed drain counts in `CNT_TIMEOUT` or in `CNT_RDERR` and returns to WAIT (R69). -/
theorem exec_drh_failed {st : DrainStatus} (n : BitVec 8) (h : s.eng = .req) (hst : st ≠ .ok) :
    exec (.drh st n) s = .next { s with
      cntTimeout := if st = .timeout then oneMore s.cntTimeout else s.cntTimeout
      cntRderr := if st = .timeout then s.cntRderr else oneMore s.cntRderr
      eng := .wait } := by
  cases st with
  | ok => exact absurd rfl hst
  | timeout => simp [exec, execDrh, h, State.countTimeout, satInc_eq_oneMore]
  | error | reserved3 => simp [exec, execDrh, h, State.countRderr, satInc_eq_oneMore]

theorem exec_smp_of_burst (pid : Pid) (raw : Sample) (h : s.eng = .burst) :
    exec (.smp pid raw) s = .next (s.takeSample pid raw).endSample := if_pos h

theorem exec_smp_of_not_burst (pid : Pid) (raw : Sample) (h : s.eng ≠ .burst) : exec (.smp pid raw) s = .next s :=
  if_neg h

end

/-- Settles O12: the two branches of NTF. -/
theorem ntfSetsNotifyUnlessStopped : Obligations.NtfSetsNotifyUnlessStopped :=
  fun _ => ⟨fun h => if_pos h, exec_ntf_of_running⟩

@[simp] theorem State.drainReq_eq_true_iff (s : State) : s.drainReq = true ↔ s.eng = .req := decide_eq_true_iff

@[simp] theorem State.drainReq_eq_false_iff (s : State) : s.drainReq = false ↔ s.eng ≠ .req :=
  decide_eq_false_iff_not

/-- Settles O13: WAKE has a next state only when it is enabled, and `drain_req` is the comparison of `ENG` with REQ. -/
theorem wakeTakesNotification : Obligations.WakeTakesNotification := by
  intro s
  refine ⟨fun hen => ⟨?_, exec_wake_of_enabled hen, rfl⟩, ?_, s.drainReq_eq_true_iff.2, ?_⟩
  · obtain ⟨hwait, -⟩ := hen
    simp [hwait]
  · rintro hdis ⟨t, ht⟩
    rw [exec_wake_of_not_enabled hdis] at ht
    cases ht
  · rintro (h | h | h) <;> simp [h]

/-- Settles O14: the two branches of an OK header. -/
theorem okHeaderStartsBurst : Obligations.OkHeaderStartsBurst := by
  intro s n hreq
  exact ⟨fun hn => hn ▸ exec_drh_ok_zero hreq, exec_drh_ok_of_ne_zero hreq⟩

/-- Settles O15: the failed drain at its three statuses, and a sample outside BURST. -/
theorem failedHeaderCountsOnly : Obligations.FailedHeaderCountsOnly := by
  intro s n hreq
  refine ⟨exec_drh_failed n hreq nofun, exec_drh_failed n hreq nofun, exec_drh_failed n hreq nofun, ?_⟩
  intro t pid raw hwait
  exact exec_smp_of_not_burst pid raw (by simp [hwait])

/-! ## The demultiplexer (R71) -/

/-- A found identifier belongs to a channel of the configuration, so one that no channel has is not found. -/
theorem lookup_eq_none {cfg : Config} {pid : Pid} (h : ∀ ch ∈ cfg.channels, ch.physId ≠ pid) :
    lookup cfg pid = none := by
  cases hl : lookup cfg pid with
  | none => rfl
  | some c =>
    obtain ⟨ch, hch, hpid⟩ := Option.map_eq_some_iff.1 (lookup_some cfg pid c hl).1
    exact absurd hpid (h ch (List.mem_of_getElem? hch))

/-- The channel that has the identifier is found, since no other one has it (R5). -/
theorem lookup_eq_some {cfg : Config} {pid : Pid} {c : Chan} (hwf : cfg.wf = true)
    (h : cfg.channels[c.val]?.map ChannelConfig.physId = some pid) : lookup cfg pid = some c := by
  obtain ⟨-, -, -, -, hdistinct, -⟩ := (Config.wf_iff cfg).1 hwf
  obtain ⟨d, hd⟩ : ∃ d, lookup cfg pid = some d := by
    refine Option.isSome_iff_exists.1 (List.find?_isSome.2 ⟨c, ?_, decide_eq_true h⟩)
    exact (by decide : ∀ c : Chan, c ∈ allChans) c
  obtain ⟨hpid, hlt⟩ := lookup_some cfg pid d hd
  have hindex : d.val = c.val := by
    refine (List.getElem?_inj (by rw [List.length_map]; exact hlt) hdistinct).1 ?_
    rw [List.getElem?_map, List.getElem?_map, hpid, h]
  rw [hd, Fin.ext hindex]

theorem lookup_physId {cfg : Config} {c : Chan} {ch : ChannelConfig} (hwf : cfg.wf = true)
    (h : cfg.channels[c.val]? = some ch) : lookup cfg ch.physId = some c := lookup_eq_some hwf (by rw [h]; rfl)

/-- Settles O17: distinct identifiers make the found channel the only one, and every entry of the table has a channel
index, since there are at most six. -/
theorem lookupFindsOwner : Obligations.LookupFindsOwner := by
  intro cfg pid hwf
  refine ⟨fun c => ⟨fun h => (lookup_some cfg pid c h).1, lookup_eq_some hwf⟩, fun hnone ch hmem hpid => ?_,
    lookup_eq_none⟩
  obtain ⟨-, hn, -⟩ := (Config.wf_iff cfg).1 hwf
  obtain ⟨i, hi, rfl⟩ := List.mem_iff_getElem.1 hmem
  have hfound : lookup cfg cfg.channels[i].physId = some ⟨i, hi.trans_le hn⟩ :=
    lookup_physId hwf (List.getElem?_eq_getElem hi)
  rw [hpid, hnone] at hfound
  cases hfound

/-! ## One sample (R70 to R73) -/

section
variable {s : State} {pid : Pid}

theorem State.takeSample_of_unmatched (raw : Sample) (h : lookup s.cfg pid = none) :
    s.takeSample pid raw = { s with cntInvalid := oneMore s.cntInvalid } := by
  simp [State.takeSample, h, State.countInvalid, satInc_eq_oneMore]

theorem State.takeSample_of_missed {c : Chan} (raw : Sample) (h : lookup s.cfg pid = some c)
    (hmiss : s.draws.grant = false) : s.takeSample pid raw = s := by
  simp [State.takeSample, h, hmiss]

/-- Between operations the lock is free, so taking and releasing it leaves no trace (R22). -/
theorem State.takeSample_of_granted {c : Chan} (raw : Sample) (h : lookup s.cfg pid = some c)
    (hgrant : s.draws.grant = true) (hfree : s.lockHeld = false) : s.takeSample pid raw = s.latch c raw := by
  simp only [State.takeSample, h, hgrant, if_true, State.locked_latch]
  rw [s.latch_frame, ← hfree]

end

/-- Settles O18: the unmatched branch of a sample, and the end of every SMP. -/
theorem unmatchedSampleCounted : Obligations.UnmatchedSampleCounted := by
  intro s pid raw hburst hremain hpid
  rw [exec_smp_of_burst pid raw hburst, State.takeSample_of_unmatched raw (lookup_eq_none hpid), State.endSample_eq]
  exact hremain

/-- Settles O19: the missed-lock branch of a sample, and the end of every SMP. -/
theorem missedLockDropsSample : Obligations.MissedLockDropsSample := by
  intro s c raw ch hwf hburst hremain hch hmiss
  rw [exec_smp_of_burst _ raw hburst, State.takeSample_of_missed raw (lookup_physId hwf hch) hmiss,
    s.endSample_eq hremain]

/-- What HYST answers for a channel's record fits the registers (R87 (a), (b)). -/
theorem RecordInv.hyst_bounds {cfg : Config} {mem : Memory} {c : Chan} {r : ChannelRecord}
    (h : RecordInv cfg mem c r) (x : Sample) :
    (r.hyst x).y ≤ 4095 ∧ (r.hyst x).wmin < (r.hyst x).wmax ∧ (r.hyst x).wmax ≤ 4096 := by
  obtain ⟨hcal, hcal', hw, -, hwin, hwin', -, -⟩ := h
  have hx : x.toNat ≤ 4095 := by have := x.isLt; omega
  obtain ⟨hy, hlt, hle⟩ := Machine.hyst_bounds x.toNat _ _ _ _ _ hx hwin hwin' hcal hcal' hw
  exact ⟨hy, hlt, hle.trans hcal'⟩

theorem toNat_ofNat_of_lt {w n : Nat} (h : n < 2 ^ w) : (BitVec.ofNat w n).toNat = n := by
  rw [BitVec.toNat_ofNat, Nat.mod_eq_of_lt h]

section
variable {s : State} {c : Chan} (x : Sample)

/-- The slot at the cursor takes the stage output, untruncated. -/
theorem State.latch_read_cur (hm : Memory.wf s.mem) (h : RecordInv s.cfg s.mem c (s.record c)) :
    (Memory.read (s.latch c x).mem (slotKey c (s.record c).cur.toNat)).toNat = ((s.record c).hyst x).y := by
  obtain ⟨hy, -, -⟩ := h.hyst_bounds x
  rw [s.latch_mem, Memory.read_write _ hm, if_pos rfl]
  exact toNat_ofNat_of_lt (by omega)

/-- The window is the one HYST answers, untruncated. -/
theorem State.latch_window (h : RecordInv s.cfg s.mem c (s.record c)) :
    ((s.latch c x).record c).wmin.toNat = ((s.record c).hyst x).wmin ∧
      ((s.latch c x).record c).wmax.toNat = ((s.record c).hyst x).wmax := by
  obtain ⟨-, hlt, hle⟩ := h.hyst_bounds x
  rw [s.latch_record_self]
  exact ⟨toNat_ofNat_of_lt (by omega), toNat_ofNat_of_lt (by omega)⟩

/-- The cursor advances modulo `K`. -/
theorem State.latch_cur (hwf : s.cfg.wf = true) :
    ((s.latch c x).record c).cur.toNat = ((s.record c).cur.toNat + 1) % s.cfg.k := by
  obtain ⟨-, -, hk1, hk, -, -⟩ := (Config.wf_iff s.cfg).1 hwf
  have hlt := Nat.mod_lt ((s.record c).cur.toNat + 1) hk1
  rw [s.latch_record_self]
  exact toNat_ofNat_of_lt (by omega)

/-- `ACC` is the sum of the slots after the write (R93). -/
theorem State.latch_acc (hwf : s.cfg.wf = true) (hm : Memory.wf s.mem)
    (h : RecordInv s.cfg s.mem c (s.record c)) :
    ((s.latch c x).record c).acc.toNat = Memory.sum (s.latch c x).mem c s.cfg.k := by
  obtain ⟨-, -, -, hk, -, -⟩ := (Config.wf_iff s.cfg).1 hwf
  rw [s.latch_record_self, s.latch_mem]
  exact h.toNat_acc hk hm _

/-- `FILT` is that sum divided by `K`, at most 4095 (R94). -/
theorem State.latch_filt (hwf : s.cfg.wf = true) (hm : Memory.wf s.mem)
    (h : RecordInv s.cfg s.mem c (s.record c)) :
    ((s.latch c x).record c).filt.toNat = Memory.sum (s.latch c x).mem c s.cfg.k / s.cfg.k := by
  have hmean : Memory.sum (s.latch c x).mem c s.cfg.k / s.cfg.k ≤ 4095 :=
    Nat.div_le_of_le_mul (Memory.sum_le _ c s.cfg.k)
  have hfilt : ((s.latch c x).record c).filt = BitVec.ofNat 12 (((s.latch c x).record c).acc.toNat / s.cfg.k) := by
    rw [s.latch_record_self]
  rw [hfilt, State.latch_acc x hwf hm h]
  exact toNat_ofNat_of_lt (by omega)

end

/-- Settles O20: the next state is the latch followed by the end of the SMP, which touches no record and no slot. -/
theorem grantedSampleLatched : Obligations.GrantedSampleLatched := by
  rintro s c raw ch ⟨hwf, hm, hfree, hremain, -, hrec⟩ hburst hch hgrant
  have hlookup := lookup_physId hwf hch
  have hr := hrec (by simp [hburst]) c (lookup_some _ _ _ hlookup).2
  obtain ⟨hwmin, hwmax⟩ := State.latch_window raw hr
  refine ⟨(s.latch c raw).endSample, ?_, ?_⟩
  · rw [exec_smp_of_burst _ raw hburst, State.takeSample_of_granted raw hlookup hgrant hfree]
  simp only [State.endSample_record, State.endSample_mem, State.endSample_recs]
  refine ⟨?_, fun d hd => s.latch_record_ne c d raw hd, fun a ha => ?_,
    State.latch_read_cur raw hm hr, ?_, hwmin, hwmax, State.latch_cur raw hwf, State.latch_acc raw hwf hm hr,
    State.latch_filt raw hwf hm hr, ?_⟩
  · rw [s.latch_frame, State.endSample_recordBlind, s.endSample_eq (hremain.2 hburst)]
  · rw [s.latch_mem, Memory.read_write _ hm, if_neg ha]
  · rw [s.latch_record_self]
  · rw [s.latch_record_self]

/-! ## A notification during a cycle (R77) -/

/-- Besides STOP, only an enabled WAKE and the START of a stopped block clear a pending notification (R20). -/
theorem Effect.notify_of_pending {i : Instr} {s t : State} (h : Effect i s t) (hpending : s.notify = true)
    (hstop : i ≠ .stop) (hwake : i = .wake → s.eng ≠ .wait) (hstart : i = .start → s.eng ≠ .stopped) :
    t.notify = true := by
  cases h with
  | drop | emptyDrain | burstBegun | drainTimeout | drainError | answered | readRecord | calSet | widthSet =>
    exact hpending
  | notified => rfl
  | sampled pid raw => rw [State.endSample_notify, State.takeSample_notify, hpending]
  | woken hi hw => exact absurd hw (hwake hi)
  | started hi hs => exact absurd hs (hstart hi)
  | stopped hi => exact absurd hi hstop

/-- Settles O21: no effect of a DRH or SMP, and in REQ or BURST none but STOP's, clears a pending notification. -/
theorem notificationDuringCycle : Obligations.NotificationDuringCycle := by
  intro s
  refine ⟨fun hcycle => ?_, fun hpending i hi => ?_, fun hpending hcycle t i hstop hexec => ?_⟩
  · have hntf : exec .ntf s = .next { s with notify := true } :=
      exec_ntf_of_running (by rcases hcycle with h | h <;> simp [h])
    exact ⟨hntf, fun hpending => by rw [hntf, ← hpending]⟩
  · have hother : i ≠ .stop ∧ i ≠ .wake ∧ i ≠ .start := by
      obtain ⟨_, _, rfl⟩ | ⟨_, _, rfl⟩ := hi <;> exact ⟨nofun, nofun, nofun⟩
    obtain ⟨hstop, hwake, hstart⟩ := hother
    obtain ⟨t, ht⟩ := exec_total i s fun h => absurd h hwake
    have hkept := (exec_effect i s t ht).notify_of_pending hpending hstop (absurd · hwake) (absurd · hstart)
    exact ⟨t, ht, hkept, fun hwait => ⟨hwait, hkept⟩⟩
  · have hrunning : s.eng ≠ .wait ∧ s.eng ≠ .stopped := by rcases hcycle with h | h <;> simp [h]
    obtain ⟨hnotWait, hnotStopped⟩ := hrunning
    have hkept := (exec_effect i s t hexec).notify_of_pending hpending hstop (fun _ => hnotWait) fun _ => hnotStopped
    exact ⟨hkept, fun hwait => ⟨⟨hwait, hkept⟩, exec_wake_of_enabled ⟨hwait, hkept⟩⟩⟩

/-! ## What a step presents to an operation, and the one step that is stuck (R66) -/

theorem step_engineStep {s : State} {rest : List Input} (hwf : s.cfg.wf = true) (hen : WakeEnabled s)
    (hs : s.schedule = .engineStep :: rest) :
    step s = .next { s with notify := false, eng := .req, schedule := rest } :=
  (step_of_nextAction_run hwf (State.nextAction_engineStep hs)).trans (exec_wake_of_enabled hen)

theorem step_word {s : State} {p : PortWord} {d : Draws} {rest : List Input} (hwf : s.cfg.wf = true)
    (hs : s.schedule = .word p d :: rest) : step s = exec (decode p) { s with schedule := rest, draws := d } :=
  step_of_nextAction_run hwf (State.nextAction_word hs)

/-- Settles O54: by what the schedule presents. An idle step and the reset input complete, a word carries no WAKE, and
every operation but a disabled WAKE completes. -/
theorem onlyDisabledWakeIsStuck : Obligations.OnlyDisabledWakeIsStuck := by
  intro s hwf
  cases hs : s.schedule with
  | nil => exact .inl ⟨s, by simp only [step, if_pos hwf, State.nextAction, hs]⟩
  | cons e rest =>
    cases e with
    | rst =>
      refine .inl ⟨State.hardwareReset { s with schedule := rest }, ?_⟩
      rw [step, if_pos hwf, State.nextAction, hs]
    | word p d =>
      rw [step_word hwf hs]
      exact .inl (exec_total _ _ fun h => absurd h (decode_ne_wake p))
    | engineStep =>
      by_cases hen : WakeEnabled s
      · exact .inl ⟨_, step_engineStep hwf hen hs⟩
      · rw [step_of_nextAction_run hwf (State.nextAction_engineStep hs)]
        exact .inr ⟨exec_wake_of_not_enabled hen, ⟨rest, rfl⟩, hen⟩

/-! ## A whole drain cycle (R74) -/

/-- A cycle begins with WAKE, so that its header is presented in REQ. -/
theorem run_wake_header {s : State} {hd : SWord} {d : Draws} {rest : List Input} (k : Nat) (hwf : s.cfg.wf = true)
    (hen : WakeEnabled s) (hs : s.schedule = .engineStep :: .word (.sample hd) d :: rest)
    (hkind : hd.extractLsb' 30 2 = 2#2) :
    core.run (k + 2) s = runAfter k (exec (.drh (.ofBits (hd.extractLsb' 28 2)) (hd.extractLsb' 0 8))
      { s with notify := false, eng := .req, schedule := rest, draws := d }) := by
  rw [run_succ, step_engineStep hwf hen hs, runAfter, run_succ, ← decode_drh hkind]
  exact congrArg (runAfter k) (step_word hwf rfl)

/-- Settles O56: WAKE, then a failed header. -/
theorem failedDrainCycleTouchesNoRecord : Obligations.FailedDrainCycleTouchesNoRecord := by
  intro s hd d rest hwf hwait hnotify hs hkind hst
  rw [run_wake_header 0 hwf ⟨hwait, hnotify⟩ hs hkind,
    exec_drh_failed _ rfl (mt (DrainStatus.ofBits_eq_ok_iff _).1 hst)]
  simp only [DrainStatus.ofBits_eq_timeout_iff, ← hwait]
  rfl

/-- Two states that differ at most in what samples write: records, slots and `CNT_INVALID`. -/
def SameButSamples (s t : State) : Prop := t = { s with recs := t.recs, mem := t.mem, cntInvalid := t.cntInvalid }

section
variable {s t u : State}

theorem SameButSamples.trans (h : SameButSamples s t) (h' : SameButSamples t u) : SameButSamples s u := by
  unfold SameButSamples
  rw [h', h]

theorem SameButSamples.cfg_eq (h : SameButSamples s t) : t.cfg = s.cfg := by rw [h]

theorem SameButSamples.lockHeld_eq (h : SameButSamples s t) : t.lockHeld = s.lockHeld := by rw [h]

end

theorem sampleEffect_same (s : State) (w : SWord) (d : Draws) : SameButSamples s (sampleEffect s w d) := by
  unfold sampleEffect
  split
  · rfl
  · split <;> rfl

/-- The effects of the samples of a burst, in order. -/
def samplesEffect (s : State) (ws : List (SWord × Draws)) : State := ws.foldl (fun u w => sampleEffect u w.1 w.2) s

theorem samplesEffect_same (s : State) (ws : List (SWord × Draws)) : SameButSamples s (samplesEffect s ws) := by
  induction ws generalizing s with
  | nil => rfl
  | cons w ws ih => exact (sampleEffect_same s w.1 w.2).trans (ih _)

/-- `u` in the middle of a burst: `n` samples to come, `rest` presented next. -/
def State.inBurst (u : State) (n : BitVec 8) (rest : List Input) (d : Draws) : State :=
  { u with eng := .burst, notify := false, remain := n, schedule := rest, draws := d }

/-- `u` at the end of a drain cycle: back in WAIT and the cycle counted. -/
def State.cycleDone (u : State) (rest : List Input) (d : Draws) : State :=
  { u with eng := .wait, notify := false, remain := 0, schedule := rest, draws := d, cntRead := oneMore u.cntRead }

/-- The engine, the burst counter and the schedule do not matter to a sample's effect. -/
theorem State.takeSample_inBurst (u : State) (hfree : u.lockHeld = false) (n : BitVec 8) (rest : List Input)
    (w : SWord) (d : Draws) :
    (u.inBurst n rest d).takeSample (w.extractLsb' 20 8) (w.extractLsb' 0 12) =
      (sampleEffect u w d).inBurst n rest d := by
  unfold sampleEffect
  cases hl : lookup u.cfg (w.extractLsb' 20 8) with
  | none => exact State.takeSample_of_unmatched _ hl
  | some c =>
    cases hg : d.grant with
    | true => exact State.takeSample_of_granted _ hl hg hfree
    | false => exact State.takeSample_of_missed _ hl hg

/-- A sample word in a burst applies its effect and ends as every SMP does (R70). -/
theorem step_sample_inBurst (u : State) (hwf : u.cfg.wf = true) (hfree : u.lockHeld = false) {n : BitVec 8}
    (hn : n ≠ 0#8) (rest : List Input) (d₀ : Draws) {w : SWord} (d : Draws) (hkind : w.extractLsb' 30 2 = 1#2) :
    step (u.inBurst n (.word (.sample w) d :: rest) d₀) =
      .next (afterSample ((sampleEffect u w d).inBurst n rest d)) := by
  rw [← State.endSample_eq _ hn, ← u.takeSample_inBurst hfree, ← exec_smp_of_burst _ _ rfl, ← decode_smp hkind]
  exact step_word hwf rfl

/-- The last sample of a burst completes the cycle. -/
theorem State.afterSample_inBurst_one (u : State) (rest : List Input) (d : Draws) :
    afterSample (u.inBurst 1#8 rest d) = u.cycleDone rest d := rfl

/-- Any other one leaves one sample fewer to come. -/
theorem State.afterSample_inBurst_succ (u : State) (n : Nat) (hpos : 0 < n) (hn : n < 255) (rest : List Input)
    (d : Draws) :
    afterSample (u.inBurst (BitVec.ofNat 8 (n + 1)) rest d) = u.inBurst (BitVec.ofNat 8 n) rest d := by
  have hne : BitVec.ofNat 8 (n + 1) ≠ 1#8 := by bv_omega
  have hpred : BitVec.ofNat 8 (n + 1) - 1#8 = BitVec.ofNat 8 n := by bv_omega
  simp only [afterSample, State.inBurst, if_neg hne, hpred]

/-- The inputs that present the samples of a burst. -/
def sampleInputs (ws : List (SWord × Draws)) : List Input := ws.map fun w => .word (.sample w.1) w.2

/-- A burst that runs through its announced samples applies their effects in order and completes the cycle. -/
theorem run_burst (w : SWord × Draws) (ws : List (SWord × Draws)) (rest : List Input)
    (hkinds : ∀ v ∈ w :: ws, v.1.extractLsb' 30 2 = 1#2) (hlen : ws.length < 255) (u : State)
    (hwf : u.cfg.wf = true) (hfree : u.lockHeld = false) (d₀ : Draws) :
    ∃ d, core.run (ws.length + 1)
        (u.inBurst (BitVec.ofNat 8 (ws.length + 1)) (sampleInputs (w :: ws) ++ rest) d₀) =
      .next ((samplesEffect u (w :: ws)).cycleDone rest d) := by
  induction ws generalizing w u d₀ with
  | nil =>
    have hstep := step_sample_inBurst u hwf hfree (n := 1#8) (by decide) rest d₀ w.2 (hkinds w (by simp))
    rw [State.afterSample_inBurst_one] at hstep
    rw [run_succ]
    exact ⟨w.2, congrArg (runAfter 0) hstep⟩
  | cons v ws ih =>
    have hne : BitVec.ofNat 8 ((v :: ws).length + 1) ≠ 0#8 := by
      simp only [List.length_cons] at hlen ⊢
      bv_omega
    have hstep := step_sample_inBurst u hwf hfree hne (sampleInputs (v :: ws) ++ rest) d₀ w.2 (hkinds w (by simp))
    rw [State.afterSample_inBurst_succ _ _ (by simp) hlen] at hstep
    have hsame := sampleEffect_same u w.1 w.2
    have htail : ws.length < 255 := by simp only [List.length_cons] at hlen; omega
    obtain ⟨d, hd⟩ := ih v (fun x hx => hkinds x (by simp [hx])) htail (sampleEffect u w.1 w.2)
      (by rw [hsame.cfg_eq]; exact hwf) (hsame.lockHeld_eq.trans hfree) w.2
    rw [run_succ]
    exact ⟨d, (congrArg (runAfter _) hstep).trans hd⟩

/-- Settles O55: WAKE, an OK header, and either nothing more (no sample) or the burst of the announced samples. -/
theorem drainCycleAppliesSamplesInOrder : Obligations.DrainCycleAppliesSamplesInOrder := by
  intro s hd d ws rest hwf hwait hnotify hfree hremain hs hkind hst hn hkinds
  have hrun := run_wake_header ws.length hwf ⟨hwait, hnotify⟩ hs hkind
  rw [(DrainStatus.ofBits_eq_ok_iff _).2 hst] at hrun
  suffices hdone : ∃ d', core.run (ws.length + 2) s = .next ((samplesEffect s ws).cycleDone rest d') by
    obtain ⟨d', hd'⟩ := hdone
    refine ⟨_, hd', ?_⟩
    rw [samplesEffect_same s ws]
    rfl
  rw [hrun]
  cases ws with
  | nil =>
    have hzero : hd.extractLsb' 0 8 = 0#8 := BitVec.eq_of_toNat_eq hn
    have hr : s.remain = 0#8 := hremain.resolve_right fun h => h rfl
    refine ⟨d, ?_⟩
    rw [hzero, exec_drh_ok_zero rfl]
    simp only [hr]
    rfl
  | cons w ws =>
    have hlen : ws.length < 255 := by
      have := (hd.extractLsb' 0 8).isLt
      simp only [List.length_cons] at hn
      omega
    have hcount : hd.extractLsb' 0 8 = BitVec.ofNat 8 (ws.length + 1) := by
      rw [← List.length_cons (a := w), ← hn, BitVec.ofNat_toNat, BitVec.setWidth_eq]
    rw [hcount, exec_drh_ok_of_ne_zero rfl (by bv_omega)]
    exact run_burst w ws rest hkinds hlen s hwf hfree d

end Sys2Proof.Machine

/-! # The hysteresis stage (spec/41_hysteresis.md) -/

namespace Sys2Proof.Machine

/-! ## HYST in each of its three cases (R81 to R84) -/

section
variable {x wmin wmax : Nat} (width cmin cmax : Nat)

theorem hyst_of_inside (hlo : wmin ≤ x) (hhi : x ≤ wmax) :
    hyst x wmin wmax width cmin cmax = ⟨wmin + (wmax - wmin) / 2, wmin, wmax⟩ :=
  if_pos ⟨hlo, hhi⟩

/-- Both arms of R82's new lower end are one truncated subtraction. -/
theorem hyst_of_above (h : wmax < x) :
    hyst x wmin wmax width cmin cmax = ⟨x, min (x + width / 2) cmax - width, min (x + width / 2) cmax⟩ := by
  have hbottom (top : Nat) : (if width < top then top - width else 0) = top - width := by split <;> omega
  simp only [hyst, if_neg (mt And.right (Nat.not_le.2 h)), if_pos h, hbottom]

/-- With its ends in order, a sample below the window is not above it (R84). -/
theorem hyst_of_below (h : x < wmin) (hwin : wmin ≤ wmax) :
    hyst x wmin wmax width cmin cmax =
      ⟨x, max (x - width / 2) cmin, min (max (x - width / 2) cmin + width) cmax⟩ := by
  have habove : ¬ wmax < x := by omega
  simp only [hyst, if_neg (mt And.left (Nat.not_le.2 h)), if_neg habove]

/-- A slide up that neither `cmax` nor 0 clamps moves the window to `width` around the sample (R87 (d)). -/
theorem hyst_of_above_unclamped (h : wmax < x) (htop : x + width / 2 ≤ cmax) (hbottom : width < x + width / 2) :
    hyst x wmin wmax width cmin cmax = ⟨x, x + width / 2 - width, x + width / 2 - width + width⟩ := by
  rw [hyst_of_above _ _ _ h, Nat.min_eq_left htop, Nat.sub_add_cancel hbottom.le]

/-- A slide down that neither bound clamps moves the window to `width` around the sample (R87 (e)). -/
theorem hyst_of_below_unclamped (h : x < wmin) (hwin : wmin ≤ wmax) (hbottom : cmin ≤ x - width / 2)
    (htop : x - width / 2 + width ≤ cmax) :
    hyst x wmin wmax width cmin cmax = ⟨x, x - width / 2, x - width / 2 + width⟩ := by
  rw [hyst_of_below _ _ _ h hwin, Nat.max_eq_left hbottom, Nat.min_eq_left htop]

/-- In a window of the configured width the held value is half of it above the lower end. -/
theorem hyst_of_inside_full (hlo : wmin ≤ x) (hhi : x ≤ wmin + width) :
    hyst x wmin (wmin + width) width cmin cmax = ⟨wmin + width / 2, wmin, wmin + width⟩ := by
  rw [hyst_of_inside _ _ _ hlo hhi, Nat.add_sub_cancel_left]

end

/-! ## The statements -/

/-- Settles O22: the first case of HYST. -/
theorem hystHoldsInsideWindow : Obligations.HystHoldsInsideWindow :=
  fun _ _ _ width cmin cmax hlo hhi => hyst_of_inside width cmin cmax hlo hhi

/-- Settles O23: the second case of HYST, its truncated subtraction read in both arms of R82. -/
theorem hystSlidesUp : Obligations.HystSlidesUp := by
  intro x wmin wmax width cmin cmax h
  rw [hyst_of_above width cmin cmax h]
  exact ⟨rfl, rfl, fun hgt => Nat.sub_add_cancel hgt.le, Nat.sub_eq_zero_of_le⟩

/-- Settles O24: the third case of HYST; a difference that would be negative is 0 there and loses to `cmin` like it
(R83). -/
theorem hystSlidesDown : Obligations.HystSlidesDown := by
  intro x wmin wmax width cmin cmax h hwin
  rw [hyst_of_below width cmin cmax h hwin]
  refine ⟨rfl, ?_, rfl⟩
  simp only
  omega

/-- Settles O25: `hyst_bounds`, which needs no upper bound of the width. -/
theorem hystKeepsWindowInvariant : Obligations.HystKeepsWindowInvariant := by
  intro x wmin wmax width cmin cmax hx hwin hwmax hcal hcmax hwidth _
  exact hyst_bounds x wmin wmax width cmin cmax hx hwin hwmax hcal hcmax hwidth

/-- Settles O26: after each of the three cases the window is known and contains the sample that follows, so that the
second HYST holds at its midpoint. -/
theorem hystHoldsRepeatedSample : Obligations.HystHoldsRepeatedSample := by
  intro x wmin wmax width cmin cmax h again
  refine ⟨fun x' hlo hhi hlo' hhi' => ?_, fun _ habove htop hbottom _ => ?_, fun hwin hbelow hhalf hbottom htop => ?_⟩
  · have hh : h = ⟨wmin + (wmax - wmin) / 2, wmin, wmax⟩ := hyst_of_inside _ _ _ hlo hhi
    rw [hh, hyst_of_inside _ _ _ hlo' hhi']
  · have hh : h = ⟨x, x + width / 2 - width, x + width / 2 - width + width⟩ :=
      hyst_of_above_unclamped _ _ _ habove htop hbottom
    have hmid : x + width / 2 - width + width / 2 = if width % 2 = 0 then x else x - 1 := by split <;> omega
    simp only [again, hh]
    rw [hyst_of_inside_full _ _ _ (by omega) (by omega), hmid]
  · have hcmin : cmin ≤ x - width / 2 := Nat.le_sub_of_add_le hbottom
    have hmin : h.wmin = x - width / 2 := by
      simp only [h, hyst_of_below _ _ _ hbelow hwin, Nat.max_eq_left hcmin]
    have hh : h = ⟨x, x - width / 2, x - width / 2 + width⟩ :=
      hyst_of_below_unclamped _ _ _ hbelow hwin hcmin (hmin ▸ htop)
    simp only [again, hh]
    rw [hyst_of_inside_full _ _ _ (by omega) (by omega), Nat.sub_add_cancel hhalf]

end Sys2Proof.Machine

/-! # The averaging stage (spec/42_average.md) -/

namespace Sys2Proof.Machine

/-- By induction on the number of slots: each slot adds a value between the bounds. -/
theorem Memory.sum_bounds {m : Memory} {c : Chan} {k lo hi : Nat}
    (h : ∀ i, i < k → lo ≤ (Memory.read m (slotKey c i)).toNat ∧ (Memory.read m (slotKey c i)).toNat ≤ hi) :
    k * lo ≤ Memory.sum m c k ∧ Memory.sum m c k ≤ k * hi := by
  induction k with
  | zero => simp [Memory.sum]
  | succ k ih =>
    obtain ⟨hsumLo, hsumHi⟩ := ih fun i hi => h i (hi.trans k.lt_succ_self)
    obtain ⟨hlastLo, hlastHi⟩ := h k k.lt_succ_self
    rw [Memory.sum_succ, Nat.succ_mul, Nat.succ_mul]
    exact ⟨Nat.add_le_add hsumLo hlastLo, Nat.add_le_add hsumHi hlastHi⟩

/-- The mean of at least one slot lies within any bounds of the slots (R96). -/
theorem Memory.mean_bounds {m : Memory} {c : Chan} {k lo hi : Nat} (hk : 1 ≤ k)
    (h : ∀ i, i < k → lo ≤ (Memory.read m (slotKey c i)).toNat ∧ (Memory.read m (slotKey c i)).toNat ≤ hi) :
    lo ≤ Memory.sum m c k / k ∧ Memory.sum m c k / k ≤ hi := by
  obtain ⟨hlo, hhi⟩ := Memory.sum_bounds h
  exact ⟨(Nat.le_div_iff_mul_le hk).2 (Nat.mul_comm k lo ▸ hlo), Nat.div_le_of_le_mul hhi⟩

/-- Settles O27: a latched sample leaves in `FILT` the mean of the `K` slots after the write (R94), and `K` is at least
1. -/
theorem filteredValueWithinSlots : Obligations.FilteredValueWithinSlots := by
  intro s t c raw ch lo hi hinv hburst hch hgrant hexec hslots
  have ⟨hwf, _⟩ := hinv
  obtain ⟨-, -, hk, -⟩ := (Config.wf_iff s.cfg).1 hwf
  obtain ⟨u, hu, -, -, -, -, -, -, -, -, -, hfilt, -⟩ := grantedSampleLatched s c raw ch hinv hburst hch hgrant
  obtain rfl : u = t := Host.Outcome.next.inj (hu.symm.trans hexec)
  rw [hfilt]
  exact Memory.mean_bounds hk hslots

end Sys2Proof.Machine

/-! # The accessor operations (spec/43_accessor.md): the prologue's checks, the reads, the two SETs, GET_STAT -/

namespace Sys2Proof.Machine

/-! ## The prologue's checks in their order (R98) -/

section
variable {s : State} {ch : BitVec 3} (valid : Bool) (body : Chan → State → State)

/-- A channel field below the `N` of a well-formed configuration names a channel (R111). -/
theorem exists_channelOf {cfg : Config} (hwf : cfg.wf = true) (h : ch.toNat < cfg.n) :
    ∃ c, channelOf cfg ch = some c := by
  obtain ⟨-, hn, -⟩ := (Config.wf_iff cfg).1 hwf
  exact ⟨⟨ch.toNat, by omega⟩, channelOf_eq_some cfg ch _ rfl h⟩

/-- Check 1 fails whatever the other operands, the engine and the draws are (R111). -/
theorem access_of_no_channel (h : channelOf s.cfg ch = none) : access s ch valid body = s.respond .invalid 0#32 := by
  rw [access, h]

section
variable {c : Chan} (hc : channelOf s.cfg ch = some c)
include hc

/-- Check 2: operands that fail validation (R105, R107). -/
theorem access_of_invalid {valid : Bool} (hv : valid = false) : access s ch valid body = s.respond .invalid 0#32 := by
  simp [access, hc, hv]

/-- Check 3 (R99). -/
theorem access_of_stopped {valid : Bool} (hv : valid = true) (hs : s.eng = .stopped) :
    access s ch valid body = s.respond .notStarted 0#32 := by
  simp [access, hc, hv, hs]

/-- Check 4 (R110). -/
theorem access_of_busy {valid : Bool} (hv : valid = true) (hs : s.eng ≠ .stopped) (hg : s.draws.grant = false) :
    access s ch valid body = s.respond .busy 0#32 := by
  simp [access, hc, hv, hs, hg]

end

end

theorem calValid_eq (min max : Bound) : calValid min max = decide (min.toNat < max.toNat ∧ max.toNat ≤ 4096) :=
  (Bool.decide_and _ _).symm

theorem widthValid_eq (width : Nat) : widthValid width = decide (1 ≤ width ∧ width ≤ 1000) :=
  (Bool.decide_and _ _).symm

/-- Settles O28: each of the six operations is the prologue with its own operand check and body, and the prologue
answers at the first check that fails. -/
theorem accessorChecksInOrder : Obligations.AccessorChecksInOrder := by
  intro s ch wait min max width i valid hwf hi
  have hexec : ∃ body, exec i s = .next (access s ch valid body) := by
    simp only [List.mem_cons, List.not_mem_nil, or_false, Prod.mk.injEq, ← calValid_eq, ← widthValid_eq] at hi
    obtain ⟨rfl, rfl⟩ | ⟨rfl, rfl⟩ | ⟨rfl, rfl⟩ | ⟨rfl, rfl⟩ | ⟨rfl, rfl⟩ | ⟨rfl, rfl⟩ := hi <;> exact ⟨_, rfl⟩
  obtain ⟨body, hexec⟩ := hexec
  rw [hexec]
  refine ⟨fun hch => congrArg _ (access_of_no_channel valid body (channelOf_eq_none _ _ hch)), fun hch hv => ?_,
    fun hch hv hs => ?_, fun hch hv hs hg => ?_⟩
  all_goals obtain ⟨c, hc⟩ := exists_channelOf hwf hch
  · exact congrArg _ (access_of_invalid body hc hv)
  · exact congrArg _ (access_of_stopped body hc hv hs)
  · exact congrArg _ (access_of_busy body hc hv hs hg)

/-! ## The words put out (R49, R51, R63) -/

/-- An OK answer is its data, zero-extended (R49). -/
theorem responseWord_ok (data : BitVec 32) : responseWord .ok data = data.setWidth 64 := by
  simp [responseWord, place64, Status.code]

theorem State.respond_ok (s : State) (data : BitVec 32) :
    s.respond .ok data = { s with rPort := s.rPort ++ [data.setWidth 64] } := by
  rw [State.respond, responseWord_ok]

/-- The answer of a SET that reached its body (R109). -/
theorem responseWord_persist (persistOk : Bool) :
    responseWord (if persistOk then .ok else .persistFail) 0#32 =
      if persistOk then 0#64 else 0x6000000000000000#64 := by
  cases persistOk <;> rfl

/-- A field placed in 32 bits, zero-extended, is the field placed in 64 bits. -/
theorem setWidth_place32 {n : Nat} (v : BitVec n) (lo : Nat) (h : lo + n ≤ 32) :
    (place32 v lo).setWidth 64 = place64 v lo := by
  apply BitVec.eq_of_getLsbD_eq
  intro i hi
  rw [BitVec.getLsbD_setWidth, getLsbD_place32, getLsbD_place64]
  by_cases h32 : i < 32
  · simp [h32, hi]
  · simp [h32, BitVec.getLsbD_of_ge v (i - lo) (by omega)]

theorem responseWord_calData (r : ChannelRecord) :
    responseWord .ok (calData r) = place64 r.calMax 16 ||| place64 r.calMin 0 := by
  rw [responseWord_ok, calData, BitVec.setWidth_or, setWidth_place32 _ _ (by decide), setWidth_place32 _ _ (by decide)]

theorem responseWord_engData (s : State) :
    responseWord .ok (engData s) =
      place64 s.remain 8 ||| place64 (BitVec.ofBool s.notify) 2 ||| place64 s.eng.code 0 := by
  rw [responseWord_ok, engData, BitVec.setWidth_or, BitVec.setWidth_or, setWidth_place32 _ _ (by decide),
    setWidth_place32 _ _ (by decide), setWidth_place32 _ _ (by decide)]

/-- The fields of a save word, the reserved bits among them (R51). -/
theorem saveWord_layout {c : Chan} {ch : BitVec 3} (h : ch.toNat = c.val) (r : ChannelRecord) :
    (saveWord c r).extractLsb' 61 3 = ch ∧ (saveWord c r).extractLsb' 42 19 = 0 ∧
      (saveWord c r).extractLsb' 32 10 = r.width ∧ (saveWord c r).extractLsb' 29 3 = 0 ∧
      (saveWord c r).extractLsb' 16 13 = r.calMax ∧ (saveWord c r).extractLsb' 13 3 = 0 ∧
      (saveWord c r).extractLsb' 0 13 = r.calMin := by
  simp [saveWord, BitVec.extractLsb'_or, ← h]

/-! ## The six operations, all checks passed (R100 to R109) -/

section
variable {s : State} {c : Chan} {ch : BitVec 3} (hch : ch.toNat = c.val) (hc : c.val < s.cfg.n)
  (hs : s.eng ≠ .stopped) (hg : s.draws.grant = true)
include hch hc hs hg

/-- A granted read answers OK with its field. -/
theorem access_readField_granted (field : ChannelRecord → BitVec 32) :
    access s ch true (readField field) =
      { s with lockHeld := false, rPort := s.rPort ++ [responseWord .ok (field (s.record c))] } := by
  rw [access_granted s ch c _ hch hc hs hg, readField_eq]

/-- The answer to a granted read of a field narrower than the data is the field, zero-extended once. -/
theorem access_readField_setWidth {n : Nat} (hn : n ≤ 32) (field : ChannelRecord → BitVec n) :
    access s ch true (readField fun r => (field r).setWidth 32) =
      { s with lockHeld := false, rPort := s.rPort ++ [(field (s.record c)).setWidth 64] } := by
  rw [access_readField_granted hch hc hs hg, responseWord_ok, BitVec.setWidth_setWidth (by omega)]

/-- A SET with valid operands and the lock granted: the record, one save word of the record as updated, one answer. -/
theorem access_writeRecord_granted {valid : Bool} (hv : valid = true) (update : ChannelRecord → ChannelRecord) :
    access s ch valid (writeRecord update) =
      { s with
        lockHeld := false
        recs := s.recs.set c (update (s.record c))
        pPort := s.pPort ++ [saveWord c (update (s.record c))]
        rPort := s.rPort ++ [if s.draws.persistOk then 0#64 else 0x6000000000000000#64] } := by
  rw [hv, access_granted s ch c _ hch hc hs hg, writeRecord_eq, responseWord_persist]

end

/-- Settles O29: the three fields are narrower than the 32 bits of data. -/
theorem grantedReadAnswersField : Obligations.GrantedReadAnswersField := by
  intro s c ch wait hch hc hs hg
  have hread {n : Nat} (hn : n ≤ 32) (field : ChannelRecord → BitVec n) :=
    access_readField_setWidth hch hc hs hg hn field
  exact ⟨congrArg _ (hread (by decide) _), congrArg _ (hread (by decide) _), congrArg _ (hread (by decide) _)⟩

/-- Settles O30: the answer word is the two bounds, each placed in its field. -/
theorem grantedGetCalAnswersBounds : Obligations.GrantedGetCalAnswersBounds := by
  intro s c ch wait hch hc hs hg
  refine ⟨_, congrArg _ (access_readField_granted hch hc hs hg calData), ?_⟩
  simp [responseWord_calData, BitVec.extractLsb'_or]

/-- Settles O31: the window's upper end is `windowTop`, which no width truncates, and the save word is that of the
updated record. -/
theorem grantedSetCalMovesWindow : Obligations.GrantedSetCalMovesWindow := by
  intro s c ch wait min max hch hc hlt hmax hs hg
  have hvalid : calValid min max = true := by rw [calValid_eq]; exact decide_eq_true ⟨hlt, hmax⟩
  exact ⟨_, _, congrArg _ (access_writeRecord_granted hch hc hs hg hvalid _), toNat_windowTop _ _ _,
    saveWord_layout hch _⟩

/-- Settles O32: a valid width fits the 10 bits of `WIDTH`, and the save word is that of the updated record. -/
theorem grantedSetWidthKeepsWindow : Obligations.GrantedSetWidthKeepsWindow := by
  intro s c ch wait width hch hc hlo hhi hs hg
  have hvalid : widthValid width.toNat = true := by rw [widthValid_eq]; exact decide_eq_true ⟨hlo, hhi⟩
  have hfits : (width.setWidth 10).toNat = width.toNat := by
    rw [BitVec.toNat_setWidth, Nat.mod_eq_of_lt (by omega)]
  exact ⟨_, _, congrArg _ (access_writeRecord_granted hch hc hs hg hvalid _), hfits, saveWord_layout hch _⟩

/-! ## GET_STAT (R112) -/

theorem sel_cases (sel : BitVec 3) :
    sel = 0#3 ∨ sel = 1#3 ∨ sel = 2#3 ∨ sel = 3#3 ∨ sel = 4#3 ∨ 5 ≤ sel.toNat := by
  revert sel; decide

/-- The selectors 5 to 7 select nothing. -/
theorem exec_getStat_of_ge (s : State) {sel : BitVec 3} (h : 5 ≤ sel.toNat) :
    exec (.getStat sel) s = .next (s.respond .invalid 0#32) := by
  simp only [exec, execGetStat]
  split
  case h_6 => rfl
  all_goals exact absurd h (by decide)

/-- Settles O33: the four counters fill the data, the engine word is its three fields each at its place, and the other
selectors select nothing. -/
theorem getStatAnswersCounters : Obligations.GetStatAnswersCounters := by
  intro s
  refine ⟨congrArg _ (s.respond_ok _), congrArg _ (s.respond_ok _), congrArg _ (s.respond_ok _),
    congrArg _ (s.respond_ok _), ⟨responseWord .ok (engData s), rfl, ?_⟩, fun sel hsel => exec_getStat_of_ge s hsel⟩
  rw [responseWord_engData]
  refine ⟨?_, ?_, ?_⟩
  · cases s.eng <;> simp [BitVec.extractLsb'_or, Eng.code]
  · simp only [BitVec.getLsbD_or, getLsbD_place64]
    simp
  · simp [BitVec.extractLsb'_or]

/-! ## Reads are pure (R104) -/

/-- An operation that in state `s` puts out one response word and does nothing else, the word the same whatever the
R-port held before. -/
def OnlyAnswers (i : Instr) (s : State) : Prop :=
  ∃ st data, ∀ port, exec i { s with rPort := port } = .next ({ s with rPort := port }.respond st data)

theorem onlyAnswers_getStat (sel : BitVec 3) (s : State) : OnlyAnswers (.getStat sel) s := by
  obtain rfl | rfl | rfl | rfl | rfl | h := sel_cases sel
  · exact ⟨.ok, s.cntRead, fun _ => rfl⟩
  · exact ⟨.ok, s.cntInvalid, fun _ => rfl⟩
  · exact ⟨.ok, s.cntRderr, fun _ => rfl⟩
  · exact ⟨.ok, s.cntTimeout, fun _ => rfl⟩
  · exact ⟨.ok, engData s, fun _ => rfl⟩
  · exact ⟨.invalid, 0#32, fun _ => exec_getStat_of_ge _ h⟩

/-- A read that fails a check answers and does nothing else, and one that passes leaves a free lock free. -/
theorem onlyAnswers_of_access {s : State} {i : Instr} {ch : BitVec 3} (field : ChannelRecord → BitVec 32)
    (hfree : s.lockHeld = false) (hexec : ∀ t, exec i t = .next (access t ch true (readField field))) :
    OnlyAnswers i s := by
  simp only [OnlyAnswers, hexec, Host.Outcome.next.injEq]
  cases hc : channelOf s.cfg ch with
  | none => exact ⟨.invalid, 0#32, fun port => access_of_no_channel (s := { s with rPort := port }) _ _ hc⟩
  | some c =>
    obtain ⟨hch, hn⟩ := channelOf_some _ _ _ hc
    by_cases hs : s.eng = .stopped
    · exact ⟨.notStarted, 0#32, fun port => access_of_stopped (s := { s with rPort := port }) _ hc rfl hs⟩
    · cases hg : s.draws.grant with
      | false => exact ⟨.busy, 0#32, fun port => access_of_busy (s := { s with rPort := port }) _ hc rfl hs hg⟩
      | true =>
        refine ⟨.ok, field (s.record c), fun port => ?_⟩
        rw [access_granted { s with rPort := port } ch c _ hch.symm hn hs hg, readField_eq, ← hfree]
        rfl

/-- Settles O34: the five reads only answer, and the second one finds all but the R-port as the first one did. -/
theorem readsArePure : Obligations.ReadsArePure := by
  intro s ch wait sel i hfree hi
  have hpure : OnlyAnswers i s := by
    simp only [List.mem_cons, List.not_mem_nil, or_false] at hi
    obtain rfl | rfl | rfl | rfl | rfl := hi
    · exact onlyAnswers_of_access _ hfree fun _ => rfl
    · exact onlyAnswers_of_access _ hfree fun _ => rfl
    · exact onlyAnswers_of_access _ hfree fun _ => rfl
    · exact onlyAnswers_of_access _ hfree fun _ => rfl
    · exact onlyAnswers_getStat sel s
  obtain ⟨st, data, h⟩ := hpure
  exact ⟨responseWord st data, h s.rPort, h _⟩

/-! ## Save words (R51, R109) -/

/-- A record write puts out one save word and one answer, OK or PERSIST_FAIL. -/
theorem writeRecord_ports (update : ChannelRecord → ChannelRecord) (c : Chan) (s : State) :
    ∃ v r, (writeRecord update c s).pPort = s.pPort ++ [v] ∧ (writeRecord update c s).rPort = s.rPort ++ [r] ∧
      (r.extractLsb' 61 3 = 0#3 ∨ r.extractLsb' 61 3 = 3#3) := by
  rw [writeRecord_eq]
  refine ⟨_, _, rfl, rfl, ?_⟩
  rw [responseWord_status]
  cases s.draws.persistOk
  · exact .inr rfl
  · exact .inl rfl

/-- Settles O44: of all effects only the two record writes touch the P-port. -/
theorem saveWordsOnlyFromSets : Obligations.SaveWordsOnlyFromSets := by
  intro s t i hexec
  have heffect := exec_effect i s t hexec
  cases hi : i.isCommand with
  | false => exact .inl (heffect.silent hi).2
  | true =>
    cases heffect with
    | calSet ch wait min max c he => exact .inr ⟨.inl ⟨ch, wait, min, max, he⟩, writeRecord_ports _ c s⟩
    | widthSet ch wait width c he => exact .inr ⟨.inr ⟨ch, wait, width, he⟩, writeRecord_ports _ c s⟩
    | sampled => exact .inl (by simp)
    | _ => exact .inl rfl

end Sys2Proof.Machine

/-! # START and STOP (spec/44_lifecycle.md): the rejections, STOP in every state, what a restart forgets -/

namespace Sys2Proof.Machine

/-! ## START's checks in their order (R116, R117) and STOP (R119, R120) -/

section
variable {s : State}

theorem exec_start_of_running (h : s.eng ≠ .stopped) : exec .start s = .next (s.respond .invalid 0#32) := if_pos h

theorem exec_start_of_hw_failed (h : s.eng = .stopped) (hhw : s.draws.hwOk = false) :
    exec .start s = .next (s.respond .startFail 0#32) :=
  (if_neg (not_not_intro h)).trans (if_pos hhw)

end

/-- Settles O36: START looks at `ENG` before it looks at `hw_ok`, and each failing check only answers. -/
theorem startRejections : Obligations.StartRejections :=
  fun _ => ⟨exec_start_of_running, exec_start_of_hw_failed⟩

/-- Settles O37: STOP has no check, so its one equation is the statement once the OK word is seen to be 0. -/
theorem stopAlwaysStops : Obligations.StopAlwaysStops :=
  fun s => congrArg Host.Outcome.next (State.respond_ok { s with eng := .stopped, notify := false, remain := 0 } 0#32)

/-! ## What a restart forgets (R121) -/

/-- START gives a configured channel a record of configuration and load answer alone (R27). -/
theorem State.initialise_record_congr {s t : State} (hcfg : s.cfg = t.cfg) (hdraws : s.draws = t.draws) {c : Chan}
    (hc : c.val < s.cfg.n) : s.initialise.record c = t.initialise.record c := by
  have hget : s.cfg.channels[c.val]? = some s.cfg.channels[c.val] := List.getElem?_eq_getElem hc
  rw [s.initialise_record, t.initialise_record, ← hcfg, ← hdraws, hget]

/-- Settles O57: both blocks go to `initialise`, whose records come from configuration and draws and whose slots,
counters and engine fields are constants. -/
theorem restartForgetsEverything : Obligations.RestartForgetsEverything := by
  intro s t s' t' hcfg hdraws hs ht _ hsm htm hhw hs' ht'
  rw [exec_start_of_stopped s hs hhw] at hs'
  rw [exec_start_of_stopped t ht (hdraws ▸ hhw)] at ht'
  cases hs'
  cases ht'
  refine ⟨fun c hc => State.initialise_record_congr hcfg hdraws hc, fun c i hc hi => ⟨?_, ?_⟩, fun u hu => ?_⟩
  · exact s.initialise_read_slot hsm c i hc hi
  · exact t.initialise_read_slot htm c i (hcfg ▸ hc) (hcfg ▸ hi)
  · simp only [List.mem_cons, List.not_mem_nil, or_false] at hu
    obtain rfl | rfl := hu <;> exact ⟨rfl, rfl, rfl, rfl, rfl, rfl, rfl⟩

end Sys2Proof.Machine

/-! # Responses (spec/60_exceptions.md): which failure a command reports, and what a failing command leaves -/

namespace Sys2Proof.Machine

/-! ## The status a command answers (R133) -/

/-- In state `s` operation `i` completes with one response word, whose status field is `code`. -/
def AnswersCode (i : Instr) (s : State) (code : Nat) : Prop :=
  ∃ t r, exec i s = .next t ∧ t.rPort = s.rPort ++ [r] ∧ (r.extractLsb' 61 3).toNat = code

section
variable {i : Instr} {s t : State} {st : Status} {data : BitVec 32}

theorem answersCode_of_rPort (hexec : exec i s = .next t) (hport : t.rPort = s.rPort ++ [responseWord st data]) :
    AnswersCode i s st.code.toNat :=
  ⟨t, _, hexec, hport, by rw [responseWord_status]⟩

theorem answersCode_of_respond (hexec : exec i s = .next (s.respond st data)) : AnswersCode i s st.code.toNat :=
  answersCode_of_rPort hexec rfl

end

theorem answersCode_reservedCommand (s : State) {i : Instr} (hi : i ∈ reservedCommands) : AnswersCode i s 1 :=
  ⟨_, _, exec_reservedCommand s hi, rfl, by decide⟩

theorem answersCode_start (s : State) :
    AnswersCode .start s (if s.eng ≠ .stopped then 1 else if s.draws.hwOk = false then 4 else 0) := by
  split_ifs with hrun hhw
  · exact answersCode_of_respond (exec_start_of_running hrun)
  · exact answersCode_of_respond (exec_start_of_hw_failed (not_not.1 hrun) hhw)
  · exact answersCode_of_rPort (exec_start_of_stopped s (not_not.1 hrun) (Bool.eq_true_of_not_eq_false hhw)) rfl

theorem answersCode_stop (s : State) : AnswersCode .stop s 0 := answersCode_of_rPort (st := .ok) rfl rfl

theorem answersCode_getStat (s : State) (sel : BitVec 3) :
    AnswersCode (.getStat sel) s (if 5 ≤ sel.toNat then 1 else 0) := by
  obtain rfl | rfl | rfl | rfl | rfl | h := sel_cases sel
  case inr.inr.inr.inr.inr =>
    rw [if_pos h]
    exact answersCode_of_respond (exec_getStat_of_ge s h)
  all_goals exact answersCode_of_respond (st := .ok) rfl

section
variable {s : State} {i : Instr} {ch : BitVec 3} (hwf : s.cfg.wf = true)
include hwf

/-- An accessor operation answers with the first check of the prologue that fails, or as its body does (R98). -/
theorem answersCode_access {valid : Bool} {body : Chan → State → State} {st : Status}
    (hexec : exec i s = .next (access s ch valid body))
    (hbody : ∀ c, ∃ data, (body c s).rPort = s.rPort ++ [responseWord st data]) :
    AnswersCode i s (if s.cfg.n ≤ ch.toNat then 1 else if valid = false then 1 else if s.eng = .stopped then 5
      else if s.draws.grant = false then 2 else st.code.toNat) := by
  by_cases hch : s.cfg.n ≤ ch.toNat
  · rw [if_pos hch]
    rw [access_of_no_channel _ _ (channelOf_eq_none _ _ hch)] at hexec
    exact answersCode_of_respond hexec
  · rw [if_neg hch]
    obtain ⟨c, hc⟩ := exists_channelOf hwf (not_le.1 hch)
    obtain ⟨hchan, hn⟩ := channelOf_some _ _ _ hc
    split_ifs with hv hs hg
    · rw [access_of_invalid _ hc hv] at hexec
      exact answersCode_of_respond hexec
    · rw [access_of_stopped _ hc (Bool.eq_true_of_not_eq_false hv) hs] at hexec
      exact answersCode_of_respond hexec
    · rw [access_of_busy _ hc (Bool.eq_true_of_not_eq_false hv) hs hg] at hexec
      exact answersCode_of_respond hexec
    · rw [Bool.eq_true_of_not_eq_false hv,
        access_granted s ch c body hchan.symm hn hs (Bool.eq_true_of_not_eq_false hg)] at hexec
      obtain ⟨data, hport⟩ := hbody c
      exact answersCode_of_rPort hexec hport

theorem answersCode_read {field : ChannelRecord → BitVec 32}
    (hexec : exec i s = .next (access s ch true (readField field))) :
    AnswersCode i s (if s.cfg.n ≤ ch.toNat then 1 else if s.eng = .stopped then 5
      else if s.draws.grant = false then 2 else 0) :=
  answersCode_access hwf hexec fun _ => ⟨_, rfl⟩

theorem answersCode_write {valid : Bool} {update : ChannelRecord → ChannelRecord}
    (hexec : exec i s = .next (access s ch valid (writeRecord update))) :
    AnswersCode i s (if s.cfg.n ≤ ch.toNat then 1 else if valid = false then 1 else if s.eng = .stopped then 5
      else if s.draws.grant = false then 2 else if s.draws.persistOk = false then 3 else 0) := by
  have h := answersCode_access hwf hexec fun c => ⟨0#32, by rw [writeRecord_eq]⟩
  cases hp : s.draws.persistOk <;> simpa [hp, Status.code] using h

end

/-- Settles O41: the reserved opcodes, START, STOP and GET_STAT have a status of their own, and the accessor opcodes
answer by the prologue's checks, which stand in the order of the rule. -/
theorem firstFailureReported : Obligations.FirstFailureReported := by
  intro s w op ch a b hwf hop hch ha hb
  change AnswersCode (decode (.command w)) s _
  obtain rfl : ch = (chField w).toNat := hch.trans (toNat_field w 57 3).symm
  obtain rfl : a = (aField w).toNat := ha.trans (by simp [aField])
  obtain rfl : b = (bField w).toNat := hb.trans (toNat_field w 16 13).symm
  by_cases hres : op = 0 ∨ 10 ≤ op
  · rw [if_pos hres]
    exact answersCode_reservedCommand s (decode_mem_reservedCommands w (hop ▸ hres))
  · rw [if_neg hres]
    have hops : op = 1 ∨ op = 2 ∨ op = 3 ∨ op = 4 ∨ op = 5 ∨ op = 6 ∨ op = 7 ∨ op = 8 ∨ op = 9 := by omega
    obtain rfl | rfl | rfl | rfl | rfl | rfl | rfl | rfl | rfl := hops
    · rw [decode_getRaw (opField_of_quotient hop.symm)]
      simpa using answersCode_read hwf rfl
    · rw [decode_getFilt (opField_of_quotient hop.symm)]
      simpa using answersCode_read hwf rfl
    · rw [decode_getCal (opField_of_quotient hop.symm)]
      simpa using answersCode_read hwf rfl
    · rw [decode_getWidth (opField_of_quotient hop.symm)]
      simpa using answersCode_read hwf rfl
    · rw [decode_setCal (opField_of_quotient hop.symm)]
      simpa [calValid_eq] using
        answersCode_write (i := .setCal (chField w) (waitField w) (aField w) (bField w)) hwf rfl
    · rw [decode_setWidth (opField_of_quotient hop.symm)]
      simpa [widthValid_eq] using
        answersCode_write (i := .setWidth (chField w) (waitField w) (aField w)) hwf rfl
    · rw [decode_getStat (opField_of_quotient hop.symm)]
      simpa [aField] using answersCode_getStat s (w.extractLsb' 0 3)
    · rw [decode_start (opField_of_quotient hop.symm)]
      exact answersCode_start s
    · rw [decode_stop (opField_of_quotient hop.symm)]
      exact answersCode_stop s

/-! ## What a failing command leaves (R134) -/

/-- A command does nothing but answer, or its answer is OK or PERSIST_FAIL. -/
theorem Effect.respond_or_succeeds {i : Instr} {s t : State} (h : Effect i s t) (hi : i.isCommand = true) :
    (∃ st data, t = s.respond st data) ∨
    ∃ r, t.rPort = s.rPort ++ [r] ∧ (r.extractLsb' 61 3 = 0#3 ∨ r.extractLsb' 61 3 = 3#3) := by
  cases h with
  | drop hdrop => obtain rfl | ⟨_, _, rfl⟩ | ⟨_, _, rfl⟩ | rfl := hdrop <;> cases hi
  | notified he | woken he | emptyDrain he | burstBegun _ he | drainTimeout _ he | drainError _ _ he | sampled _ _ he =>
    subst he; cases hi
  | answered st data => exact .inl ⟨st, data, rfl⟩
  | readRecord | started | stopped => exact .inr ⟨_, rfl, .inl (responseWord_status ..)⟩
  | calSet _ _ _ _ c | widthSet _ _ _ c =>
    obtain ⟨_, r, -, hport, hstatus⟩ := writeRecord_ports _ c s
    exact .inr ⟨r, hport, hstatus⟩

/-- `s` with the draw `persist_ok` set. -/
def State.withPersist (s : State) (persistOk : Bool) : State :=
  { s with draws := { s.draws with persistOk := persistOk } }

/-- Two states that differ at most in the words answered and the draws. -/
def SameButAnswer (t u : State) : Prop := t = { u with rPort := t.rPort, draws := t.draws }

section
variable {t u : State} (h : SameButAnswer t u)
include h

theorem SameButAnswer.respond (st : Status) (data : BitVec 32) :
    SameButAnswer (t.respond st data) (u.respond st data) := by
  rw [SameButAnswer, State.respond, h]
  rfl

theorem SameButAnswer.writeRecord (update : ChannelRecord → ChannelRecord) (c : Chan) :
    SameButAnswer (writeRecord update c t) (writeRecord update c u) := by
  rw [SameButAnswer, writeRecord_eq, writeRecord_eq, h]
  rfl

/-- Of the draws the prologue reads `grant` alone. -/
theorem SameButAnswer.access (hgrant : t.draws.grant = u.draws.grant) (ch : BitVec 3) (valid : Bool)
    {body : Chan → State → State} (hbody : ∀ c, SameButAnswer (body c t) (body c u)) :
    SameButAnswer (access t ch valid body) (access u ch valid body) := by
  have hcfg : t.cfg = u.cfg := by rw [h]
  have heng : t.eng = u.eng := by rw [h]
  rw [Machine.access, Machine.access, hcfg, heng, hgrant]
  cases channelOf u.cfg ch with
  | none => exact h.respond _ _
  | some c =>
    dsimp only
    split_ifs
    · exact h.respond _ _
    · exact h.respond _ _
    · exact h.respond _ _
    · exact hbody c

end

/-- With `persist_ok` 0 a command does to all but the answer and the draws what it does with `persist_ok` 1. -/
theorem exec_sameButAnswer {s t u : State} {i : Instr} (hi : i.isCommand = true)
    (ht : exec i (s.withPersist false) = .next t) (hu : exec i (s.withPersist true) = .next u) : SameButAnswer t u := by
  have hsame : SameButAnswer (s.withPersist false) (s.withPersist true) := rfl
  cases i with
  | ntf | smp | drh | wake | sReservedKind3 => cases hi
  | getRaw ch | getFilt ch | getCal ch | getWidth ch =>
    cases ht; cases hu
    exact hsame.access rfl ch _ fun _ => rfl
  | setCal ch | setWidth ch =>
    cases ht; cases hu
    exact hsame.access rfl ch _ (hsame.writeRecord _)
  | getStat sel =>
    obtain rfl | rfl | rfl | rfl | rfl | h := sel_cases sel
    case inr.inr.inr.inr.inr =>
      rw [exec_getStat_of_ge _ h] at ht hu
      cases ht; cases hu; rfl
    all_goals cases ht; cases hu; rfl
  | start =>
    by_cases hrun : s.eng = .stopped
    · cases hhw : s.draws.hwOk with
      | false =>
        have hstart (b : Bool) := exec_start_of_hw_failed (s := s.withPersist b) hrun hhw
        rw [hstart] at ht hu
        cases ht; cases hu; rfl
      | true =>
        have hstart (b : Bool) := exec_start_of_stopped (s.withPersist b) hrun hhw
        rw [hstart] at ht hu
        cases ht; cases hu; rfl
    · have hstart (b : Bool) := exec_start_of_running (s := s.withPersist b) hrun
      rw [hstart] at ht hu
      cases ht; cases hu; rfl
  | _ => cases ht; cases hu; rfl

/-- Settles O43: an answer that is neither OK nor PERSIST_FAIL is that of a command which only answers, and `persist_ok`
chooses nothing but the status of a record write that is already done. -/
theorem failedCommandChangesNothing : Obligations.FailedCommandChangesNothing := by
  constructor
  · intro s t w r hexec hport hok hpersist
    obtain ⟨st, data, rfl⟩ | ⟨r', hport', hstatus⟩ :=
      (exec_effect _ s t hexec).respond_or_succeeds (isCommand_decode_command w)
    · rw [← hport]
      rfl
    · obtain rfl : r' = r := by simpa using hport'.symm.trans hport
      exact absurd hstatus (not_or_intro hok hpersist)
  · intro s t u w ht hu
    exact exec_sameButAnswer (isCommand_decode_command w) ht hu

end Sys2Proof.Machine

/-! # Reset and the idle step (spec/70_reset_and_hazards.md): the steps that run no operation -/

namespace Sys2Proof.Machine

/-! ## What the schedule calls for when it presents no operation (R145, R146) -/

theorem State.nextAction_nil {s : State} (h : s.schedule = []) : s.nextAction = (.idle, s) := by
  simp only [State.nextAction, h]

theorem State.nextAction_rst {s : State} {rest : List Input} (h : s.schedule = .rst :: rest) :
    s.nextAction = (.reset, { s with schedule := rest }) := by
  simp only [State.nextAction, h]

theorem step_of_nextAction_idle {s u : State} (hwf : s.cfg.wf = true) (hact : s.nextAction = (.idle, u)) :
    step s = .next u := by
  rw [step, if_pos hwf, hact]

theorem step_of_nextAction_reset {s u : State} (hwf : s.cfg.wf = true) (hact : s.nextAction = (.reset, u)) :
    step s = .next u.hardwareReset := by
  rw [step, if_pos hwf, hact]

/-- Settles O8: an empty schedule calls for nothing, and the idle step answers the state it was given. -/
theorem stepIdlesWithoutInput : Obligations.StepIdlesWithoutInput :=
  fun _ hwf hs => step_of_nextAction_idle hwf (State.nextAction_nil hs)

/-! ## The reset input (R26, R145) -/

/-- R26: ENG is STOPPED after reset, so `drain_req` is 0 whatever it was before. -/
@[simp] theorem State.hardwareReset_drainReq (s : State) : s.hardwareReset.drainReq = false :=
  s.hardwareReset.drainReq_eq_false_iff.2 nofun

/-- Beside the records, the slots and the number of resets, the reset input writes the reset values of R26 and leaves the
rest, the words put out among it. -/
theorem State.hardwareReset_frame (s : State) :
    s.hardwareReset = { s with
      recs := s.hardwareReset.recs, mem := s.hardwareReset.mem, epoch := s.hardwareReset.epoch, eng := .stopped,
      notify := false, remain := 0, lockHeld := false, cntRead := 0, cntInvalid := 0, cntRderr := 0, cntTimeout := 0 } :=
  rfl

/-- Settles O10: the step consumes the entry and answers `State.hardwareReset` of what is left. -/
theorem resetInputStopsEngine : Obligations.ResetInputStopsEngine := by
  intro s rest hwf hs
  have hstep := step_of_nextAction_reset hwf (State.nextAction_rst hs)
  exact ⟨_, hstep, State.hardwareReset_drainReq _, State.hardwareReset_frame _⟩

end Sys2Proof.Machine

/-! # The encoding examples (spec/30_encoding.md, section 11) -/

namespace Sys2Proof

/-- The word the encoder gives an operation decodes to that operation. -/
theorem decode_eq_of_encode_eq_some {i : Instr} {p : PortWord} (h : encode i = some p) : decode p = i := by
  have hne : i ≠ .wake := by
    rintro rfl
    cases h
  obtain ⟨q, hq, hdecode⟩ := decodeOfEncode i (decide_eq_true hne)
  obtain rfl : q = p := Option.some.inj (hq.symm.trans h)
  exact hdecode

/-- Settles O6: each printed word has its reserved bits and unused fields 0, so it is the one the encoder gives the operation
beside it, and an encoded word decodes to its operation. -/
theorem specWordsDecode : Obligations.SpecWordsDecode := by
  unfold Obligations.SpecWordsDecode
  and_intros <;> exact decode_eq_of_encode_eq_some rfl

end Sys2Proof
